-- ==== Sys2Proof/Word.lean ====
section
/-! DEFINITION. The plain data every other file is built from: bytes, byte addresses, the 32-bit data word as its four
byte lanes (Section 5.1 of the scope file), lane masks, and the two fixed-size tables (four groups, timers, monitors
and lines; eight windows). -/

namespace Sys2Proof

/-- One byte, as carried by the management link and by one byte lane. -/
abbrev Byte := BitVec 8

/-- A 32-bit byte address of the three bus ports. -/
abbrev Addr := BitVec 32

/-- A data word: four byte lanes, lane 0 at the word address (Section 5.1). -/
structure Word where
  lane0 : Byte
  lane1 : Byte
  lane2 : Byte
  lane3 : Byte
  deriving DecidableEq, Repr

/-- The word whose four lanes hold 0x00. -/
def Word.zero : Word := ⟨0, 0, 0, 0⟩

/-- A lane mask: a set of byte lanes (Section 5.1). -/
structure LaneMask where
  lane0 : Bool
  lane1 : Bool
  lane2 : Bool
  lane3 : Bool
  deriving DecidableEq, Repr

/-- The empty lane mask. -/
def LaneMask.none : LaneMask := ⟨false, false, false, false⟩

/-- The lane mask of a whole word. -/
def LaneMask.full : LaneMask := ⟨true, true, true, true⟩

/-- Four like things, one for each of G0 to G3, T0 to T3, AM0 to AM3, CMT0 to CMT3 or SYNC0 to SYNC3. -/
structure Four (α : Type) where
  a0 : α
  a1 : α
  a2 : α
  a3 : α
  deriving DecidableEq, Repr

/-- The same value four times. -/
def Four.all {α : Type} (x : α) : Four α := ⟨x, x, x, x⟩

/-- The thing numbered `i`. -/
def Four.get {α : Type} (v : Four α) (i : Fin 4) : α :=
  match i with
  | 0 => v.a0
  | 1 => v.a1
  | 2 => v.a2
  | 3 => v.a3

/-- The table with the thing numbered `i` replaced. -/
def Four.set {α : Type} (v : Four α) (i : Fin 4) (x : α) : Four α :=
  match i with
  | 0 => { v with a0 := x }
  | 1 => { v with a1 := x }
  | 2 => { v with a2 := x }
  | 3 => { v with a3 := x }

/-- The table with the thing numbered `i` changed by `f`. -/
def Four.modify {α : Type} (v : Four α) (i : Fin 4) (f : α → α) : Four α :=
  v.set i (f (v.get i))

/-- The table with every thing changed by `f`. -/
def Four.map {α β : Type} (f : α → β) (v : Four α) : Four β :=
  ⟨f v.a0, f v.a1, f v.a2, f v.a3⟩

/-- The numbers 0 to 3, in order. -/
def four : List (Fin 4) := [0, 1, 2, 3]

/-- Eight like things: the windows W0 to W7. -/
structure Eight (α : Type) where
  a0 : α
  a1 : α
  a2 : α
  a3 : α
  a4 : α
  a5 : α
  a6 : α
  a7 : α
  deriving DecidableEq, Repr

/-- The same value eight times. -/
def Eight.all {α : Type} (x : α) : Eight α := ⟨x, x, x, x, x, x, x, x⟩

/-- The thing numbered `i`. -/
def Eight.get {α : Type} (v : Eight α) (i : Fin 8) : α :=
  match i with
  | 0 => v.a0
  | 1 => v.a1
  | 2 => v.a2
  | 3 => v.a3
  | 4 => v.a4
  | 5 => v.a5
  | 6 => v.a6
  | 7 => v.a7

/-- The table with the thing numbered `i` replaced. -/
def Eight.set {α : Type} (v : Eight α) (i : Fin 8) (x : α) : Eight α :=
  match i with
  | 0 => { v with a0 := x }
  | 1 => { v with a1 := x }
  | 2 => { v with a2 := x }
  | 3 => { v with a3 := x }
  | 4 => { v with a4 := x }
  | 5 => { v with a5 := x }
  | 6 => { v with a6 := x }
  | 7 => { v with a7 := x }

/-- The numbers 0 to 7, in order. -/
def eight : List (Fin 8) := [0, 1, 2, 3, 4, 5, 6, 7]

end Sys2Proof
end

