-- ==== Sys2Proof/Syntax.lean ====
section
/-! DEFINITION. The commands of the block: one constructor of `Instr` for each row of spec/opcode_table.json, with the
operands the rule of that row gives it. Requests of the word bus (R122) and the raw contents of management objects
(Section 10.7) are the operands' types. -/

namespace Sys2Proof

/-- The two master ports: the Host Port and the Consumer Port. -/
inductive PortId where
  | hp
  | cp
  deriving DecidableEq, Repr

/-- The direction of a request (R122). -/
inductive Kind where
  | read
  | write
  deriving DecidableEq, Repr

/-- One beat of a write: a data word and the lanes to be written (R122). -/
structure Beat where
  data : Word
  mask : LaneMask
  deriving DecidableEq, Repr

/-- A request of the word bus (R122). `count` is the burst count, 0 to 15; `beats` is empty for a READ. -/
structure Request where
  kind  : Kind
  addr  : Addr
  count : BitVec 4
  beats : List Beat
  deriving DecidableEq, Repr

/-- The memory's answer to a request of the issue list (R132). -/
inductive AnswerStatus where
  | ok
  | error
  deriving DecidableEq, Repr

/-- One receiver of the service tick (R100): a timer's prescaler, the hold timer, or a commit line's pulse countdown. -/
inductive TickSink where
  | timer (t : Fin 4)
  | hold
  | line (g : Fin 4)
  deriving DecidableEq, Repr

/-- The management objects (R172). -/
inductive Obj where
  | ident
  | device
  | queueStat
  | events
  | eventEn
  | window (n : Fin 8)
  | groupCfg (g : Fin 4)
  | groupStat (g : Fin 4)
  | fault (g : Fin 4)
  | timerCfg (t : Fin 4)
  | timerStat (t : Fin 4)
  | monCfg (m : Fin 4)
  | capture (m : Fin 4)
  | monCount (m : Fin 4)
  | cmtCfg (g : Fin 4)
  deriving DecidableEq, Repr

/-- The content of a PUT of DEVICE (Section 10.7.8): the mode byte is carried and ignored. -/
structure DeviceRaw where
  mode    : Byte
  divisor : BitVec 16
  deriving DecidableEq, Repr

/-- The content of a PUT of WINDOW_n, field by field (Section 10.7.2). -/
structure WindowRaw where
  enabled : Byte
  base    : BitVec 32
  size    : BitVec 32
  kind    : Byte
  group   : Byte
  forward : Byte
  policy  : Byte
  deriving DecidableEq, Repr

/-- The content of a PUT of GROUP_CFG_g (Section 10.7.3). -/
structure GroupCfgRaw where
  quota     : BitVec 16
  timeout   : BitVec 16
  sources   : Byte
  edge      : Byte
  sealEmpty : Byte
  deriving DecidableEq, Repr

/-- The content of a PUT of TIMER_CFG_t (Section 10.7.5). -/
structure TimerCfgRaw where
  mode    : Byte
  oneShot : Byte
  source  : Byte
  k       : Byte
  period  : BitVec 16
  matchAt : BitVec 16
  deriving DecidableEq, Repr

/-- The content of a PUT of MON_CFG_m (Section 10.7.8). -/
structure MonCfgRaw where
  enabled : Byte
  low     : BitVec 32
  high    : BitVec 32
  streams : Byte
  kinds   : Byte
  stamp   : Byte
  deriving DecidableEq, Repr

/-- The content of a PUT of CMT_CFG_g (Section 10.7.8); the two level bytes are carried and ignored (R172). -/
structure CmtCfgRaw where
  mode     : Byte
  polarity : Byte
  width    : Byte
  software : Byte
  logic    : Byte
  deriving DecidableEq, Repr

/-- The commands. A management request carries the CRC byte received with it; an action carries its argument byte. -/
inductive Instr where
  /-- POWER_ON (R182). -/
  | powerOn
  /-- RSTN_ASSERT (R139). -/
  | rstnAssert
  /-- RSTN_RELEASE (R182). -/
  | rstnRelease
  /-- REQUEST_ACCEPT (R123): request `r` arrives at port `p`. -/
  | requestAccept (p : PortId) (r : Request)
  /-- HEAD_PROCESSING (R124) of port `p`. -/
  | headProcessing (p : PortId)
  /-- MEMORY_GRANT (R134). -/
  | memoryGrant
  /-- MEMORY_ANSWER (R132): the memory answers `a`, with data beats `data`. -/
  | memoryAnswer (a : AnswerStatus) (data : List Word)
  /-- DRAIN_START (R63). -/
  | drainStart
  /-- RESPONSE_DELIVERY (R126) by port `p`. -/
  | responseDelivery (p : PortId)
  /-- HOLD_TIMER_EXPIRY (R32). -/
  | holdTimerExpiry
  /-- SERVICE_TICK (R100): `order` names the receivers that take the tick before the others. -/
  | serviceTick (order : List TickSink)
  /-- TIMER_STEP (R103): a count event reaches timer `t`. -/
  | timerStep (t : Fin 4)
  /-- PULSE_END (R154) of line `g`. -/
  | pulseEnd (g : Fin 4)
  /-- SYNC_TRANSITION (R120): input SYNCt settles at `level` (true is high). -/
  | syncTransition (t : Fin 4) (level : Bool)
  /-- CHOLD_CHANGE (R64): CHOLD is now asserted or not. -/
  | choldChange (asserted : Bool)
  /-- FRAME_START (R159): MCSn falls. -/
  | frameStart
  /-- FRAME_END (R169): MCSn rises. -/
  | frameEnd
  /-- GET (R167) of object `o`. -/
  | get (o : Obj) (crc : Byte)
  /-- GET_CAPTURE (R148) of CAPTURE_m. -/
  | getCapture (m : Fin 4) (crc : Byte)
  /-- PUT_DEVICE (R173). -/
  | putDevice (v : DeviceRaw) (crc : Byte)
  /-- PUT_EVENTS (R160). -/
  | putEvents (v : BitVec 32) (crc : Byte)
  /-- PUT_EVENT_EN (R161). -/
  | putEventEn (v : BitVec 32) (crc : Byte)
  /-- PUT_WINDOW (R3) of WINDOW_n. -/
  | putWindow (n : Fin 8) (v : WindowRaw) (crc : Byte)
  /-- PUT_GROUP_CFG (R14) of GROUP_CFG_g. -/
  | putGroupCfg (g : Fin 4) (v : GroupCfgRaw) (crc : Byte)
  /-- PUT_TIMER_CFG (R112) of TIMER_CFG_t. -/
  | putTimerCfg (t : Fin 4) (v : TimerCfgRaw) (crc : Byte)
  /-- PUT_MON_CFG (R142) of MON_CFG_m. -/
  | putMonCfg (m : Fin 4) (v : MonCfgRaw) (crc : Byte)
  /-- PUT_CMT_CFG (R157) of CMT_CFG_g. -/
  | putCmtCfg (g : Fin 4) (v : CmtCfgRaw) (crc : Byte)
  /-- ACTIVATE (R178). -/
  | activate (arg : Byte) (crc : Byte)
  /-- BYPASS (R179). -/
  | bypass (arg : Byte) (crc : Byte)
  /-- SOFT_RESET (R183). -/
  | softReset (arg : Byte) (crc : Byte)
  /-- ENABLE_GROUP (R17). -/
  | enableGroup (arg : Byte) (crc : Byte)
  /-- DISABLE_GROUP (R18). -/
  | disableGroup (arg : Byte) (crc : Byte)
  /-- SEAL (R55). -/
  | sealGroup (arg : Byte) (crc : Byte)
  /-- DISCARD (R41). -/
  | discard (arg : Byte) (crc : Byte)
  /-- CLEAR_FAULT (R19). -/
  | clearFault (arg : Byte) (crc : Byte)
  /-- TIMER_START (R109). -/
  | timerStart (arg : Byte) (crc : Byte)
  /-- TIMER_STOP (R110). -/
  | timerStop (arg : Byte) (crc : Byte)
  /-- TIMER_PRESET (R111). -/
  | timerPreset (arg : Byte) (crc : Byte)
  /-- SET_CMT (R153). -/
  | setCmt (arg : Byte) (crc : Byte)
  /-- UNKNOWN_REQUEST (R167): a request whose command `cmd` or number `num` names nothing. A DO frame (0x03) has an
  argument byte before its CRC byte (R165); the other frames of this kind have none. -/
  | unknownRequest (cmd : Byte) (num : Byte) (arg : Option Byte) (crc : Byte)
  /-- READ_ONLY_PUT (R167) of the read-only object `o`, with its full-length payload. -/
  | readOnlyPut (o : Obj) (payload : List Byte) (crc : Byte)
  /-- REQUEST_BYTE_RECEIVED (R165): one byte is clocked in on MOSI while one is shifted out on MISO. -/
  | requestByteReceived (b : Byte)
  deriving DecidableEq, Repr

end Sys2Proof
end

