-- ==== Sys2Proof/Config.lean ====
section
/-! DEFINITION. The constants of the part that several rules share, and the one free value of the model. -/

namespace Sys2Proof

/-- The staging queue holds up to 512 entries (R20). -/
def Config.queueSize : Nat := 512

/-- Each master port has four request slots (R123). -/
def Config.portSlots : Nat := 4

/-- The memory issue list holds at most 8 records (R130). -/
def Config.issueSize : Nat := 8

/-- At most four commit writes are outstanding (R66). -/
def Config.commitWrites : Nat := 4

/-- FREE VALUE (log entry 6). Where REFCLK itself makes a service tick, the spec does not say which of the tick's
receivers takes it first; the order of the n-th such tick is this uninterpreted list. Nothing in Lean can evaluate it,
so a statement about such a tick holds for every order. -/
opaque Config.tickOrder : Nat → List TickSink

end Sys2Proof
end

