-- ==== Sys2Proof/Decode.lean ====
section
/-! DEFINITION. Reading commands from bits. The opcode table gives no row any bits, so `decodeTableWord` reads none.
What the spec does encode is the management frame: this file holds the CRC-8 (R166), the numbers of objects and actions
(R172, R175), the byte layouts a PUT carries (R176), the request length (R165), and both directions between a
management command and its request bytes. -/

namespace Sys2Proof

/-! ## Bytes -/

/-- The two bytes of a 16-bit field, most significant first (R176). -/
def bytes16 (x : BitVec 16) : List Byte := [x.extractLsb' 8 8, x.extractLsb' 0 8]

/-- The four bytes of a 32-bit field, most significant first (R176). -/
def bytes32 (x : BitVec 32) : List Byte :=
  [x.extractLsb' 24 8, x.extractLsb' 16 8, x.extractLsb' 8 8, x.extractLsb' 0 8]

/-- The 16-bit field of two bytes, most significant first (R176). -/
def word16 (hi lo : Byte) : BitVec 16 := hi ++ lo

/-- The 32-bit field of four bytes, most significant first (R176). -/
def word32 (b0 b1 b2 b3 : Byte) : BitVec 32 := b0 ++ b1 ++ b2 ++ b3

/-! ## CRC-8 -/

/-- One shift of the CRC-8 remainder towards its most significant end (R166). -/
def crcShift (r : Byte) : Byte := if r.msb then (r <<< 1) ^^^ 0x07 else r <<< 1

/-- The remainder after one more byte (R166). -/
def crcByte (r b : Byte) : Byte :=
  crcShift (crcShift (crcShift (crcShift (crcShift (crcShift (crcShift (crcShift (r ^^^ b))))))))

/-- The CRC-8 of a sequence of bytes (R166). -/
def crc8 (bs : List Byte) : Byte := bs.foldl crcByte 0

/-! ## Objects (R172) -/

/-- The object number of an object (R172). -/
def Obj.number : Obj → Byte
  | .ident => 0x00
  | .device => 0x01
  | .queueStat => 0x02
  | .events => 0x03
  | .eventEn => 0x04
  | .window n => BitVec.ofNat 8 (0x10 + n.val)
  | .groupCfg g => BitVec.ofNat 8 (0x20 + g.val)
  | .groupStat g => BitVec.ofNat 8 (0x28 + g.val)
  | .fault g => BitVec.ofNat 8 (0x2C + g.val)
  | .timerCfg t => BitVec.ofNat 8 (0x30 + t.val)
  | .timerStat t => BitVec.ofNat 8 (0x38 + t.val)
  | .monCfg m => BitVec.ofNat 8 (0x40 + m.val)
  | .capture m => BitVec.ofNat 8 (0x48 + m.val)
  | .monCount m => BitVec.ofNat 8 (0x4C + m.val)
  | .cmtCfg g => BitVec.ofNat 8 (0x50 + g.val)

/-- All objects, in the order of the table of R172. -/
def Obj.all : List Obj :=
  [.ident, .device, .queueStat, .events, .eventEn]
    ++ eight.map .window ++ four.map .groupCfg ++ four.map .groupStat ++ four.map .fault
    ++ four.map .timerCfg ++ four.map .timerStat ++ four.map .monCfg ++ four.map .capture
    ++ four.map .monCount ++ four.map .cmtCfg

/-- The object a number names, if any (R172: other object numbers name no object). -/
def Obj.ofNumber (b : Byte) : Option Obj := Obj.all.find? (fun o => o.number == b)

/-- The fixed length of an object's content in bytes (R172). -/
def Obj.length : Obj → Nat
  | .ident => 4
  | .device => 3
  | .queueStat => 4
  | .events => 4
  | .eventEn => 4
  | .window _ => 13
  | .groupCfg _ => 7
  | .groupStat _ => 11
  | .fault _ => 8
  | .timerCfg _ => 8
  | .timerStat _ => 5
  | .monCfg _ => 12
  | .capture _ => 11
  | .monCount _ => 3
  | .cmtCfg _ => 5

/-- Whether an object is read-only (R172). -/
def Obj.readOnly : Obj → Bool
  | .ident => true
  | .device => false
  | .queueStat => true
  | .events => false
  | .eventEn => false
  | .window _ => false
  | .groupCfg _ => false
  | .groupStat _ => true
  | .fault _ => true
  | .timerCfg _ => false
  | .timerStat _ => true
  | .monCfg _ => false
  | .capture _ => true
  | .monCount _ => true
  | .cmtCfg _ => false

/-- Whether an object is a capture record, the one object whose GET has a side effect (R167). -/
def Obj.isCapture : Obj → Bool
  | .capture _ => true
  | _ => false

/-! ## Actions (R175) -/

/-- The actions of R175. -/
inductive MgmtAction where
  | activate
  | bypass
  | softReset
  | enableGroup
  | disableGroup
  | sealGroup
  | discard
  | clearFault
  | timerStart
  | timerStop
  | timerPreset
  | setCmt
  deriving DecidableEq, Repr

/-- The action code of an action (R175). -/
def MgmtAction.code : MgmtAction → Byte
  | .activate => 0x01
  | .bypass => 0x02
  | .softReset => 0x03
  | .enableGroup => 0x10
  | .disableGroup => 0x11
  | .sealGroup => 0x12
  | .discard => 0x13
  | .clearFault => 0x14
  | .timerStart => 0x20
  | .timerStop => 0x21
  | .timerPreset => 0x22
  | .setCmt => 0x30

/-- All actions. -/
def MgmtAction.all : List MgmtAction :=
  [.activate, .bypass, .softReset, .enableGroup, .disableGroup, .sealGroup, .discard, .clearFault,
   .timerStart, .timerStop, .timerPreset, .setCmt]

/-- The action a code names, if any (R175). -/
def MgmtAction.ofCode (b : Byte) : Option MgmtAction := MgmtAction.all.find? (fun a => a.code == b)

/-- The command that takes an action. -/
def MgmtAction.command (a : MgmtAction) (arg crc : Byte) : Instr :=
  match a with
  | .activate => .activate arg crc
  | .bypass => .bypass arg crc
  | .softReset => .softReset arg crc
  | .enableGroup => .enableGroup arg crc
  | .disableGroup => .disableGroup arg crc
  | .sealGroup => .sealGroup arg crc
  | .discard => .discard arg crc
  | .clearFault => .clearFault arg crc
  | .timerStart => .timerStart arg crc
  | .timerStop => .timerStop arg crc
  | .timerPreset => .timerPreset arg crc
  | .setCmt => .setCmt arg crc

/-! ## Payloads of PUT (Section 10.7) -/

/-- The bytes of a DEVICE content. -/
def DeviceRaw.toBytes (v : DeviceRaw) : List Byte := v.mode :: bytes16 v.divisor

/-- The DEVICE content of three bytes. -/
def DeviceRaw.ofBytes : List Byte → Option DeviceRaw
  | [a, b, c] => some ⟨a, word16 b c⟩
  | _ => none

/-- The 32-bit value of the four bytes of EVENTS or EVENT_EN (Section 10.7.7). -/
def eventsOfBytes : List Byte → Option (BitVec 32)
  | [a, b, c, d] => some (word32 a b c d)
  | _ => none

/-- The bytes of a WINDOW_n content. -/
def WindowRaw.toBytes (v : WindowRaw) : List Byte :=
  v.enabled :: (bytes32 v.base ++ (bytes32 v.size ++ [v.kind, v.group, v.forward, v.policy]))

/-- The WINDOW_n content of 13 bytes. -/
def WindowRaw.ofBytes : List Byte → Option WindowRaw
  | [a, b0, b1, b2, b3, s0, s1, s2, s3, k, g, f, p] =>
    some ⟨a, word32 b0 b1 b2 b3, word32 s0 s1 s2 s3, k, g, f, p⟩
  | _ => none

/-- The bytes of a GROUP_CFG_g content. -/
def GroupCfgRaw.toBytes (v : GroupCfgRaw) : List Byte :=
  bytes16 v.quota ++ (bytes16 v.timeout ++ [v.sources, v.edge, v.sealEmpty])

/-- The GROUP_CFG_g content of seven bytes. -/
def GroupCfgRaw.ofBytes : List Byte → Option GroupCfgRaw
  | [q0, q1, t0, t1, s, e, z] => some ⟨word16 q0 q1, word16 t0 t1, s, e, z⟩
  | _ => none

/-- The bytes of a TIMER_CFG_t content. -/
def TimerCfgRaw.toBytes (v : TimerCfgRaw) : List Byte :=
  v.mode :: v.oneShot :: v.source :: v.k :: (bytes16 v.period ++ bytes16 v.matchAt)

/-- The TIMER_CFG_t content of eight bytes. -/
def TimerCfgRaw.ofBytes : List Byte → Option TimerCfgRaw
  | [m, o, s, k, p0, p1, m0, m1] => some ⟨m, o, s, k, word16 p0 p1, word16 m0 m1⟩
  | _ => none

/-- The bytes of a MON_CFG_m content. -/
def MonCfgRaw.toBytes (v : MonCfgRaw) : List Byte :=
  v.enabled :: (bytes32 v.low ++ (bytes32 v.high ++ [v.streams, v.kinds, v.stamp]))

/-- The MON_CFG_m content of 12 bytes. -/
def MonCfgRaw.ofBytes : List Byte → Option MonCfgRaw
  | [e, l0, l1, l2, l3, h0, h1, h2, h3, s, k, g] =>
    some ⟨e, word32 l0 l1 l2 l3, word32 h0 h1 h2 h3, s, k, g⟩
  | _ => none

/-- The bytes of a CMT_CFG_g content. -/
def CmtCfgRaw.toBytes (v : CmtCfgRaw) : List Byte := [v.mode, v.polarity, v.width, v.software, v.logic]

/-- The CMT_CFG_g content of five bytes. -/
def CmtCfgRaw.ofBytes : List Byte → Option CmtCfgRaw
  | [m, p, w, s, l] => some ⟨m, p, w, s, l⟩
  | _ => none

/-! ## Frames -/

/-- The command byte of GET (R165). -/
def cmdGet : Byte := 0x01
/-- The command byte of PUT (R165). -/
def cmdPut : Byte := 0x02
/-- The command byte of DO (R165). -/
def cmdDo : Byte := 0x03

/-- The request length in bytes that the command and number bytes fix (the table of R165). -/
def requestLength (cmd num : Byte) : Nat :=
  if cmd = cmdPut then
    match Obj.ofNumber num with
    | some o => 3 + o.length
    | none => 3
  else if cmd = cmdDo then 4
  else 3

/-- Whether command and number bytes name no request the part knows (R167, check 2). -/
def unknownHead (cmd num : Byte) : Bool :=
  if cmd = cmdGet ∨ cmd = cmdPut then (Obj.ofNumber num).isNone
  else if cmd = cmdDo then (MgmtAction.ofCode num).isNone
  else true

/-- The request bytes before the CRC byte, of the commands that are management requests (R165). -/
def Instr.requestBody : Instr → Option (List Byte)
  | .get o _ => some [cmdGet, o.number]
  | .getCapture m _ => some [cmdGet, (Obj.capture m).number]
  | .putDevice v _ => some (cmdPut :: Obj.device.number :: v.toBytes)
  | .putEvents v _ => some (cmdPut :: Obj.events.number :: bytes32 v)
  | .putEventEn v _ => some (cmdPut :: Obj.eventEn.number :: bytes32 v)
  | .putWindow n v _ => some (cmdPut :: (Obj.window n).number :: v.toBytes)
  | .putGroupCfg g v _ => some (cmdPut :: (Obj.groupCfg g).number :: v.toBytes)
  | .putTimerCfg t v _ => some (cmdPut :: (Obj.timerCfg t).number :: v.toBytes)
  | .putMonCfg m v _ => some (cmdPut :: (Obj.monCfg m).number :: v.toBytes)
  | .putCmtCfg g v _ => some (cmdPut :: (Obj.cmtCfg g).number :: v.toBytes)
  | .activate a _ => some [cmdDo, MgmtAction.activate.code, a]
  | .bypass a _ => some [cmdDo, MgmtAction.bypass.code, a]
  | .softReset a _ => some [cmdDo, MgmtAction.softReset.code, a]
  | .enableGroup a _ => some [cmdDo, MgmtAction.enableGroup.code, a]
  | .disableGroup a _ => some [cmdDo, MgmtAction.disableGroup.code, a]
  | .sealGroup a _ => some [cmdDo, MgmtAction.sealGroup.code, a]
  | .discard a _ => some [cmdDo, MgmtAction.discard.code, a]
  | .clearFault a _ => some [cmdDo, MgmtAction.clearFault.code, a]
  | .timerStart a _ => some [cmdDo, MgmtAction.timerStart.code, a]
  | .timerStop a _ => some [cmdDo, MgmtAction.timerStop.code, a]
  | .timerPreset a _ => some [cmdDo, MgmtAction.timerPreset.code, a]
  | .setCmt a _ => some [cmdDo, MgmtAction.setCmt.code, a]
  | .unknownRequest c n a _ => some (c :: n :: a.toList)
  | .readOnlyPut o p _ => some (cmdPut :: o.number :: p)
  | .powerOn | .rstnAssert | .rstnRelease | .requestAccept _ _ | .headProcessing _ | .memoryGrant
  | .memoryAnswer _ _ | .drainStart | .responseDelivery _ | .holdTimerExpiry | .serviceTick _
  | .timerStep _ | .pulseEnd _ | .syncTransition _ _ | .choldChange _ | .frameStart | .frameEnd
  | .requestByteReceived _ => none

/-- The CRC byte that a management command carries. -/
def Instr.requestCrc : Instr → Byte
  | .get _ c | .getCapture _ c | .putDevice _ c | .putEvents _ c | .putEventEn _ c | .putWindow _ _ c
  | .putGroupCfg _ _ c | .putTimerCfg _ _ c | .putMonCfg _ _ c | .putCmtCfg _ _ c | .activate _ c
  | .bypass _ c | .softReset _ c | .enableGroup _ c | .disableGroup _ c | .sealGroup _ c | .discard _ c
  | .clearFault _ c | .timerStart _ c | .timerStop _ c | .timerPreset _ c | .setCmt _ c
  | .unknownRequest _ _ _ c | .readOnlyPut _ _ c => c
  | .powerOn | .rstnAssert | .rstnRelease | .requestAccept _ _ | .headProcessing _ | .memoryGrant
  | .memoryAnswer _ _ | .drainStart | .responseDelivery _ | .holdTimerExpiry | .serviceTick _
  | .timerStep _ | .pulseEnd _ | .syncTransition _ _ | .choldChange _ | .frameStart | .frameEnd
  | .requestByteReceived _ => 0

/-- The whole request of a management command, CRC byte last (R165). -/
def encodeRequest (c : Instr) : Option (List Byte) := c.requestBody.map (· ++ [c.requestCrc])

/-- Why bytes are not one whole request. -/
inductive DecodeError where
  /-- Fewer bytes than the request needs, the CRC byte among them. -/
  | incomplete
  /-- More bytes than the request has. -/
  | overlong
  deriving DecidableEq, Repr

/-- The PUT command of a known object and its payload; a payload of another length than the object's is refused. -/
def decodePut (o : Obj) (payload : List Byte) (crc : Byte) : Option Instr :=
  if o.readOnly then
    if payload.length = o.length then some (.readOnlyPut o payload crc) else none
  else
    match o with
    | .device => (DeviceRaw.ofBytes payload).map (Instr.putDevice · crc)
    | .events => (eventsOfBytes payload).map (Instr.putEvents · crc)
    | .eventEn => (eventsOfBytes payload).map (Instr.putEventEn · crc)
    | .window n => (WindowRaw.ofBytes payload).map (Instr.putWindow n · crc)
    | .groupCfg g => (GroupCfgRaw.ofBytes payload).map (Instr.putGroupCfg g · crc)
    | .timerCfg t => (TimerCfgRaw.ofBytes payload).map (Instr.putTimerCfg t · crc)
    | .monCfg m => (MonCfgRaw.ofBytes payload).map (Instr.putMonCfg m · crc)
    | .cmtCfg g => (CmtCfgRaw.ofBytes payload).map (Instr.putCmtCfg g · crc)
    | .ident | .queueStat | .groupStat _ | .fault _ | .timerStat _ | .capture _ | .monCount _ => none

/-- The command of a whole request: its command byte, number byte, payload and CRC byte (R165, R167 check 2). -/
def decodeParts (cmd num : Byte) (payload : List Byte) (crc : Byte) : Option Instr :=
  if cmd = cmdGet then
    match Obj.ofNumber num, payload with
    | some (.capture m), [] => some (.getCapture m crc)
    | some o, [] => some (.get o crc)
    | none, [] => some (.unknownRequest cmd num none crc)
    | _, _ => none
  else if cmd = cmdPut then
    match Obj.ofNumber num with
    | some o => decodePut o payload crc
    | none => if payload = [] then some (.unknownRequest cmd num none crc) else none
  else if cmd = cmdDo then
    match MgmtAction.ofCode num, payload with
    | some a, [arg] => some (a.command arg crc)
    | none, [arg] => some (.unknownRequest cmd num (some arg) crc)
    | _, _ => none
  else if payload = [] then some (.unknownRequest cmd num none crc) else none

/-- The command that a list of request bytes spells, CRC byte last; refused by name when they are not one whole
request. The CRC byte is not checked here: a request with a wrong one is still taken, and answered CRC (R167). -/
def decodeRequest (bytes : List Byte) : Except DecodeError Instr :=
  match bytes with
  | cmd :: num :: rest =>
    if bytes.length < requestLength cmd num then .error .incomplete
    else if requestLength cmd num < bytes.length then .error .overlong
    else
      match decodeParts cmd num rest.dropLast (rest.getLastD 0) with
      | some c => .ok c
      | none => .error .incomplete
  | _ => .error .incomplete

/-- The command a word spells by the bits of spec/opcode_table.json. The table gives no row any bits: none. -/
def decodeTableWord (_nbits _w : Nat) : Option Instr := none

end Sys2Proof
end

