-- ==== Sys2Proof/WellFormed.lean ====
section
/-! DEFINITION. Which commands are well formed. A request of the word bus carries one beat per unit of burst count when
it is a WRITE, and none when it is a READ (R122); the management rows each cover their own requests only. -/

namespace Sys2Proof

/-- A request holds one beat per unit of *burst count* for WRITE and no beat for READ (R122). -/
def Request.wf (r : Request) : Bool :=
  match r.kind with
  | .read => r.beats.isEmpty
  | .write => r.beats.length == r.count.toNat

/-- A command is well formed when its operands fit its row: `get` leaves the capture records to `getCapture`;
`unknownRequest` names nothing known, with an argument byte exactly in a DO frame (R165); `readOnlyPut` names a
read-only object and carries its full length (R165, R172). -/
def Instr.wf : Instr → Bool
  | .requestAccept _ r => r.wf
  | .get o _ => !o.isCapture
  | .unknownRequest c n a _ => unknownHead c n && (a.isSome == decide (c = cmdDo))
  | .readOnlyPut o p _ => o.readOnly && p.length == o.length
  | .powerOn | .rstnAssert | .rstnRelease | .headProcessing _ | .memoryGrant | .memoryAnswer _ _
  | .drainStart | .responseDelivery _ | .holdTimerExpiry | .serviceTick _ | .timerStep _ | .pulseEnd _
  | .syncTransition _ _ | .choldChange _ | .frameStart | .frameEnd | .getCapture _ _ | .putDevice _ _
  | .putEvents _ _ | .putEventEn _ _ | .putWindow _ _ _ | .putGroupCfg _ _ _ | .putTimerCfg _ _ _
  | .putMonCfg _ _ _ | .putCmtCfg _ _ _ | .activate _ _ | .bypass _ _ | .softReset _ _
  | .enableGroup _ _ | .disableGroup _ _ | .sealGroup _ _ | .discard _ _ | .clearFault _ _
  | .timerStart _ _ | .timerStop _ _ | .timerPreset _ _ | .setCmt _ _ | .requestByteReceived _ => true

end Sys2Proof
end

