-- ==== Sys2Proof/Machine/State.lean ====
section
/-! DEFINITION. Everything the spec gives the bridge, as plain data, with the value of each piece after power-on and
RSTn (`State.reset`: the part right after RSTn is released, R182). Fields whose docstring says MODEL are the model's own. -/

namespace Sys2Proof.Machine

/-! ## Window table and commit groups (Chapter 1) -/

/-- How a window's words are treated (Section 1.1). -/
inductive WindowKind where
  | staged
  | locked
  deriving DecidableEq, Repr

/-- What becomes of a host write that its group cannot take in (Section 1.1). -/
inductive FullPolicy where
  | stall
  | refuse
  deriving DecidableEq, Repr

/-- One entry of the window table (R1). `size` counts 256-byte units. -/
structure Window where
  enabled : Bool
  base    : Addr
  size    : Nat
  kind    : WindowKind
  group   : Fin 4
  forward : Bool
  policy  : FullPolicy
  deriving DecidableEq, Repr

/-- A window entry after power-on and RSTn (R1). -/
def Window.reset : Window := ⟨false, 0, 1, .staged, 0, false, .stall⟩

/-- The four group states (R16). -/
inductive GroupState where
  | disabled
  | running
  | faulted
  | stopping
  deriving DecidableEq, Repr

/-- Which transitions of a sync input count (Section 1.4.1, R102). -/
inductive Edge where
  | rising
  | falling
  | both
  deriving DecidableEq, Repr

/-- The set of seal sources of a group (Section 1.4.1). -/
structure SealSources where
  wrap   : Bool
  peak   : Bool
  hit    : Bool
  sync   : Bool
  deriving DecidableEq, Repr

/-- The configuration of a commit group (R13). -/
structure GroupCfg where
  quota        : Nat
  stallTimeout : Nat
  sources      : SealSources
  syncEdge     : Edge
  sealEmpty    : Bool
  deriving DecidableEq, Repr

/-- A group configuration after power-on and RSTn (Section 1.4.1). -/
def GroupCfg.reset : GroupCfg := ⟨128, 1000, ⟨false, false, false, false⟩, .rising, true⟩

/-- The fault record of a group (Section 1.4.2). -/
structure FaultRecord where
  valid   : Bool
  address : Addr
  epoch   : BitVec 16
  dropped : Nat
  deriving DecidableEq, Repr

/-- The cleared fault record (R15, R19). -/
def FaultRecord.reset : FaultRecord := ⟨false, 0, 0, 0⟩

/-- One record of the group table: its configuration and its dynamic fields (R13, R15). -/
structure GroupRec where
  cfg           : GroupCfg
  state         : GroupState
  openEpoch     : BitVec 16
  lastCommitted : BitVec 16
  hasSealed     : Bool
  openCount     : Nat
  sealedCount   : Nat
  overruns      : Nat
  fault         : FaultRecord
  deriving DecidableEq, Repr

/-- The dynamic fields after any reset, beside a given configuration (R15). -/
def GroupRec.fresh (c : GroupCfg) : GroupRec := ⟨c, .disabled, 1, 0, false, 0, 0, 0, FaultRecord.reset⟩

/-- A group after power-on and RSTn. -/
def GroupRec.reset : GroupRec := GroupRec.fresh GroupCfg.reset

/-! ## Staging queue (Chapter 2) -/

/-- The role of a staging queue entry (R20). -/
inductive Role where
  | opened
  | sealed
  deriving DecidableEq, Repr

/-- How far the commit engine has progressed with an entry (R20). -/
inductive IssueState where
  | notIssued
  | issued
  | reissued
  deriving DecidableEq, Repr

/-- One entry of the staging queue (R20). -/
structure Entry where
  group : Fin 4
  role  : Role
  addr  : Addr
  data  : Word
  mask  : LaneMask
  issue : IssueState
  deriving DecidableEq, Repr

/-! ## Commit engine (Chapter 4) -/

/-- *engine state* and *current group* (R62): the group is present only while DRAINING. -/
inductive EngineState where
  | idle
  | draining (g : Fin 4)
  deriving DecidableEq, Repr

/-- The commit engine (R62). A member of the retry list is named by its word address: no two SEALED entries of the
current group share one (R23). -/
structure Engine where
  state      : EngineState
  writeCount : Nat
  retry      : List Addr
  deriving DecidableEq, Repr

/-- The engine after power-on and RSTn (R62). -/
def Engine.reset : Engine := ⟨.idle, 0, []⟩

/-! ## Ports, issue list and arbiter (Chapters 5 and 7) -/

/-- The class of a request, with what R8 has it carry, or the BYPASS handling of R9. -/
inductive ReqClass where
  | bypassed
  | outside
  | staged (n : Fin 8) (g : Fin 4) (forward : Bool) (policy : FullPolicy)
  | locked (n : Fin 8)
  deriving DecidableEq, Repr

/-- The group of a STAGED class; group 0 stands for no group, as *hold group* reads then (R43). -/
def ReqClass.group : ReqClass → Fin 4
  | .staged _ g _ _ => g
  | .bypassed | .outside | .locked _ => 0

/-- The response codes (R126). FULL carries the group whose FULL_Gg flag its delivery sets. -/
inductive RespCode where
  | ok
  | align
  | length
  | span
  | full (g : Fin 4)
  | locked
  | memory
  | reset
  deriving DecidableEq, Repr

/-- A response of the word bus (R122). -/
structure Response where
  code : RespCode
  data : List Word
  deriving DecidableEq, Repr

/-- Why a host write is held (R43). -/
inductive HoldCause where
  | admission
  | disable
  deriving DecidableEq, Repr

/-- What a processed head waits for (R125): the memory, as a pass-through or a forwarded request, or the end of a hold.
A held write keeps the hold timer: the service ticks left, or none when no timer runs (R30, R35). -/
inductive HeadRole where
  | passThrough
  | forwarded
  | held (cause : HoldCause) (timer : Option Nat)
  deriving DecidableEq, Repr

/-- The phase of an occupied slot (R123). -/
inductive SlotPhase where
  | waiting
  | head (cls : ReqClass) (role : HeadRole)
  | issued
  | answered (r : Response)
  deriving DecidableEq, Repr

/-- An occupied request slot: which of the four slots it is, the request as accepted, and its phase (R123). -/
structure Slot where
  id    : Fin 4
  req   : Request
  phase : SlotPhase
  deriving DecidableEq, Repr

/-- A master port. `slots` are the occupied slots in the order of acceptance (R123); `offered` are the requests their
master still has to have accepted, in order (R123). MODEL: `delivered` is the response most recently taken by the
master, the port's output (log entry 5). -/
structure Port where
  slots     : List Slot
  offered   : List Request
  delivered : Option Response
  deriving DecidableEq, Repr

/-- A master port after power-on and RSTn: every slot free (R123). -/
def Port.reset : Port := ⟨[], [], none⟩

/-- The three requesters of the memory port (R130, R135). -/
inductive Requester where
  | hp
  | cp
  | ce
  deriving DecidableEq, Repr

/-- One part of an overlay source: a copy of an entry's data and lane mask (R84). -/
structure OverlayPart where
  data : Word
  mask : LaneMask
  deriving DecidableEq, Repr

/-- The overlay source of one word (R84). -/
structure Overlay where
  sealedPart : Option OverlayPart
  openPart   : Option OverlayPart
  deriving DecidableEq, Repr

/-- The staging queue entry a commit-write record carries: the SEALED entry of a group at a word address (R130, R23). -/
structure EntryRef where
  group : Fin 4
  addr  : Addr
  deriving DecidableEq, Repr

/-- One record of the memory issue list (R130). -/
structure IssueRec where
  requester : Requester
  req       : Request
  slot      : Option (Fin 4)
  snapshot  : Option (List Overlay)
  entry     : Option EntryRef
  orphan    : Bool
  deriving DecidableEq, Repr

/-! ## Timers (Chapter 6) -/

/-- The tick generator (R100) with the divisor of the DEVICE object (R173): `inForce` ends the period in progress,
`count` is the number of REFCLK edges counted in it. -/
structure TickGen where
  divisor : Nat
  inForce : Nat
  count   : Nat
  deriving DecidableEq, Repr

/-- The tick generator after power-on and RSTn (R100). -/
def TickGen.reset : TickGen := ⟨25, 25, 0⟩

/-- The counting modes of a timer (R101). -/
inductive TimerMode where
  | up
  | down
  | upDown
  deriving DecidableEq, Repr

/-- The count source of a timer (R102): TICK/2^k, or edges of its sync input. -/
inductive CountSource where
  | tick (k : Fin 16)
  | sync (e : Edge)
  deriving DecidableEq, Repr

/-- Counting direction (R101). -/
inductive Direction where
  | up
  | down
  deriving DecidableEq, Repr

/-- One epoch timer (R101). `periodNext` and `matchNext` are the pending slots. -/
structure Timer where
  mode       : TimerMode
  oneShot    : Bool
  source     : CountSource
  period     : BitVec 16
  matchAt    : BitVec 16
  running    : Bool
  counter    : BitVec 16
  direction  : Direction
  periodNext : Option (BitVec 16)
  matchNext  : Option (BitVec 16)
  prescale   : Nat
  deriving DecidableEq, Repr

/-- A timer after power-on and RSTn (R101, R118). -/
def Timer.reset : Timer := ⟨.up, false, .tick 0, 65535, 0, false, 0, .up, none, none, 0⟩

/-! ## Access monitors (Chapter 8) -/

/-- The streams a monitor watches (Section 8.1). -/
structure StreamSet where
  hp : Bool
  cp : Bool
  ce : Bool
  deriving DecidableEq, Repr

/-- The kinds a monitor watches (Section 8.1). -/
structure KindSet where
  read  : Bool
  write : Bool
  deriving DecidableEq, Repr

/-- The configuration of a monitor (R142). -/
structure MonCfg where
  enabled : Bool
  low     : Addr
  high    : Addr
  streams : StreamSet
  kinds   : KindSet
  stamp   : Fin 4
  deriving DecidableEq, Repr

/-- A capture record (R141). A stream is named by its requester. -/
structure Capture where
  full         : Bool
  stream       : Requester
  kind         : Kind
  address      : Addr
  stampCounter : BitVec 16
  stampEpoch   : BitVec 16
  deriving DecidableEq, Repr

/-- The empty capture record with its fields zero (R141). -/
def Capture.empty : Capture := ⟨false, .hp, .read, 0, 0, 0⟩

/-- One access monitor (R141). -/
structure Monitor where
  cfg        : MonCfg
  hits       : Nat
  overwrites : Nat
  capture    : Capture
  deriving DecidableEq, Repr

/-- A monitor with its counts and record cleared, beside a given configuration (R142, R150). -/
def Monitor.fresh (c : MonCfg) : Monitor := ⟨c, 0, 0, Capture.empty⟩

/-- A monitor after power-on and RSTn (R150). -/
def Monitor.reset : Monitor := Monitor.fresh ⟨false, 0, 0, ⟨false, false, false⟩, ⟨false, false⟩, 0⟩

/-! ## Commit lines and event flags (Chapter 9) -/

/-- The modes of a commit line (Section 9.1). -/
inductive LineMode where
  | level
  | pulse
  | toggle
  | busy
  deriving DecidableEq, Repr

/-- The polarity of a commit line (R152). -/
inductive Polarity where
  | activeHigh
  | activeLow
  deriving DecidableEq, Repr

/-- One commit line (R151). Levels are true when active. -/
structure Line where
  mode      : LineMode
  polarity  : Polarity
  width     : Nat
  software  : Bool
  logic     : Bool
  countdown : Nat
  deriving DecidableEq, Repr

/-- A commit line after power-on and RSTn (R151). -/
def Line.reset : Line := ⟨.level, .activeHigh, 4, false, false, 0⟩

/-- The thirty event flags (Section 9.2). -/
inductive EventFlag where
  | sealed (g : Fin 4)
  | committed (g : Fin 4)
  | overrun (g : Fin 4)
  | full (g : Fin 4)
  | fault (g : Fin 4)
  | hit (m : Fin 4)
  | captureOverwrite
  | lockedHit
  | portError
  | memoryError
  | mgmtError
  | bypassReached
  deriving DecidableEq, Repr

/-- The event block: the *value*, *frame mark* and *enable* of the thirty flags, bit by bit as EVENTS numbers them
(R159, R161, Section 10.7.7). -/
structure EventBlock where
  value  : BitVec 30
  mark   : BitVec 30
  enable : BitVec 30
  deriving DecidableEq, Repr

/-- The event block after power-on and RSTn (R159, R161). -/
def EventBlock.reset : EventBlock := ⟨0, 0, 0⟩

/-! ## Management port (Chapter 10) -/

/-- Where the management link stands (R164). `idle`: MCSn is high. `ignored`: MCSn is low and the rest of the low
period is ignored, because RSTn is, or was, asserted during it (R170). -/
inductive FramePhase where
  | idle
  | request
  | reply
  | trailer
  | ignored
  deriving DecidableEq, Repr

/-- The management port (R170): the phase, the request bytes received so far, the request length once the number byte
has fixed it, and the reply bytes not yet shifted out. MODEL: `miso` is the byte shifted out with the byte clocked
last in this frame, the link's output (log entry 5). -/
structure Mgmt where
  phase    : FramePhase
  received : List Byte
  length   : Option Nat
  reply    : List Byte
  miso     : Option Byte
  deriving DecidableEq, Repr

/-- The management port between frames. -/
def Mgmt.reset : Mgmt := ⟨.idle, [], none, [], none⟩

/-- The device modes (R177). -/
inductive DeviceMode where
  | bypass
  | active
  | leaving
  deriving DecidableEq, Repr

/-! ## The whole part -/

/-- The state of the bridge. MODEL: `freeIndex` numbers the free values (log entry 6), `pending` is the queue of
commands that wait. -/
structure State where
  /-- RSTn is asserted (R139, R182). -/
  inReset   : Bool
  /-- The device mode (R177). -/
  mode      : DeviceMode
  /-- The level of the CHOLD input, true when asserted (R64, R81). -/
  chold     : Bool
  /-- The levels of the inputs SYNC0 to SYNC3, true when high. -/
  syncLine  : Four Bool
  /-- The reference levels of the four edge detectors (R119). -/
  syncRef   : Four Bool
  /-- The tick generator and the tick divisor (R100, R173). -/
  tick      : TickGen
  /-- The window table (R1). -/
  windows   : Eight Window
  /-- The group table (R13, R15). -/
  groups    : Four GroupRec
  /-- The staging queue, oldest entry first (R20, R21). -/
  queue     : List Entry
  /-- The commit request queue, head first (R61). -/
  commitReq : List (Fin 4)
  /-- The commit engine (R62). -/
  engine    : Engine
  /-- The Host Port (R123). -/
  hp        : Port
  /-- The Consumer Port (R123). -/
  cp        : Port
  /-- The memory issue list, oldest record first (R130). -/
  issue     : List IssueRec
  /-- The rotation pointer of the arbiter (R135). -/
  pointer   : Requester
  /-- The epoch timers (R101). -/
  timers    : Four Timer
  /-- The access monitors (R141). -/
  monitors  : Four Monitor
  /-- The commit lines (R151). -/
  lines     : Four Line
  /-- The event flags and enables (R159, R161). -/
  events    : EventBlock
  /-- The management port (R170). -/
  mgmt      : Mgmt
  /-- MODEL: the number of free values used so far. -/
  freeIndex : Nat
  /-- MODEL: the commands that wait, first in, first out. -/
  pending   : List Instr
  deriving DecidableEq, Repr

/-- The part right after RSTn is released, with no command waiting (R182). Input levels, which have no reset value, are
those of log entry 1. -/
def State.reset : State where
  inReset := false
  mode := .bypass
  chold := false
  syncLine := Four.all false
  syncRef := Four.all false
  tick := TickGen.reset
  windows := Eight.all Window.reset
  groups := Four.all GroupRec.reset
  queue := []
  commitReq := []
  engine := Engine.reset
  hp := Port.reset
  cp := Port.reset
  issue := []
  pointer := .ce
  timers := Four.all Timer.reset
  monitors := Four.all Monitor.reset
  lines := Four.all Line.reset
  events := EventBlock.reset
  mgmt := Mgmt.reset
  freeIndex := 0
  pending := []

/-- The reasons a step may stop with a fault. There are none: the spec gives every command an effect in every state, so
no step of this model stops (safe: nothing is cut off). -/
inductive Fault : Type
  deriving DecidableEq, Repr

/-- The reasons a command may be refused. -/
inductive Refusal where
  /-- Raised by `exec` alone, for a row that has no meaning yet. Safe: the machine stops instead of guessing. -/
  | notModelled (mnemonic : String)
  deriving DecidableEq, Repr

end Sys2Proof.Machine
end

