-- ==== Sys2Proof/Machine/Flags.lean ====
section
/-! DEFINITION. The event flags and ATTN (Section 9.2), and the commit lines (Section 9.1). -/

namespace Sys2Proof.Machine

/-! ## Event flags -/

/-- The bit of a flag in EVENTS and EVENT_EN (Section 10.7.7). -/
def EventFlag.bit : EventFlag → Nat
  | .sealed g => g.val
  | .committed g => 4 + g.val
  | .overrun g => 8 + g.val
  | .full g => 12 + g.val
  | .fault g => 16 + g.val
  | .hit m => 20 + m.val
  | .captureOverwrite => 24
  | .lockedHit => 25
  | .portError => 26
  | .memoryError => 27
  | .mgmtError => 28
  | .bypassReached => 29

/-- The word in which only a flag's bit is set. -/
def EventFlag.word (f : EventFlag) : BitVec 30 := BitVec.ofNat 30 (2 ^ f.bit)

/-- Whether a flag's value is set. -/
def EventBlock.isSet (e : EventBlock) (f : EventFlag) : Bool := e.value.getLsbD f.bit

/-- A cause of a flag is taken: its value becomes set and its frame mark yes (R159). -/
def EventBlock.cause (f : EventFlag) (e : EventBlock) : EventBlock :=
  { e with value := e.value ||| f.word, mark := e.mark ||| f.word }

/-- The causes of several flags are taken, one after another. -/
def EventBlock.causes (fs : List EventFlag) (e : EventBlock) : EventBlock := fs.foldl (fun e f => e.cause f) e

/-- A frame starts: every frame mark becomes no (R159). -/
def EventBlock.frameStart (e : EventBlock) : EventBlock := { e with mark := 0 }

/-- A PUT of EVENTS clears every flag whose bit is 1 and whose frame mark is no (R160). Bits 30 and 31 are ignored. -/
def EventBlock.put (bits : BitVec 32) (e : EventBlock) : EventBlock :=
  { e with value := e.value &&& ~~~(bits.setWidth 30 &&& ~~~e.mark) }

/-- A PUT of EVENT_EN replaces all thirty enables (R161). Bits 30 and 31 are ignored. -/
def EventBlock.putEnable (bits : BitVec 32) (e : EventBlock) : EventBlock :=
  { e with enable := bits.setWidth 30 }

/-- SOFT_RESET clears every value and every frame mark, and keeps the enables (R162). -/
def EventBlock.softReset (e : EventBlock) : EventBlock := { e with value := 0, mark := 0 }

/-- Whether the part drives ATTN low: some flag is both set and enabled (R161). -/
def EventBlock.attention (e : EventBlock) : Bool := e.value &&& e.enable != 0

/-- ATTN is driven low (R161). -/
def State.attn (s : State) : Bool := s.events.attention

/-- A cause of flag `f` is taken (R159). -/
def State.cause (f : EventFlag) (s : State) : State := { s with events := s.events.cause f }

/-! ## Commit lines -/

/-- The level of a commit line's pin, true when high (R152). -/
def Line.pin (l : Line) : Bool :=
  match l.polarity with
  | .activeHigh => l.logic
  | .activeLow => !l.logic

/-- A seal of the line's group: BUSY makes the line active, the other modes do not move it (R47, R156). -/
def Line.onSeal (l : Line) : Line :=
  match l.mode with
  | .busy => { l with logic := true }
  | .level | .pulse | .toggle => l

/-- A completion of the line's group (R74 step 3, R153 to R156). -/
def Line.onCompletion (l : Line) : Line :=
  match l.mode with
  | .pulse => { l with logic := true, countdown := l.width }
  | .toggle => { l with logic := !l.logic }
  | .busy => { l with logic := false }
  | .level => l

/-- A service tick reaches the line: a countdown above 0 falls by one, and the tick that lowers it to 0 makes the line
inactive (R154). -/
def Line.onTick (l : Line) : Line :=
  if l.countdown = 0 then l
  else if l.countdown = 1 then { l with countdown := 0, logic := false }
  else { l with countdown := l.countdown - 1 }

/-- The tick that lowers the countdown from 1 to 0 is taken: the line becomes inactive (R154). At any other countdown no
tick ends a pulse (log entry 14). -/
def Line.endPulse (l : Line) : Line :=
  if l.countdown = 1 then { l with countdown := 0, logic := false } else l

/-- SET_CMT: the software level is set, and in LEVEL mode the logic level with it (R153). -/
def Line.setSoftware (level : Bool) (l : Line) : Line :=
  match l.mode with
  | .level => { l with software := level, logic := level }
  | .pulse | .toggle | .busy => { l with software := level }

/-- A taken PUT of CMT_CFG_g (R157). With the mode unchanged a countdown already running keeps its count, and the next
completion takes the new width; so in PULSE mode a PUT that changes the width leaves another countdown when it is taken
before a completion than when it is taken after it: the model's choice between two sentences of R157 (log entry 25). -/
def Line.configure (mode : LineMode) (polarity : Polarity) (width : Nat) (l : Line) : Line :=
  if mode = l.mode then { l with polarity := polarity, width := width }
  else
    match mode with
    | .level => { l with mode := mode, polarity := polarity, width := width, logic := l.software, countdown := 0 }
    | .pulse | .toggle | .busy =>
      { l with mode := mode, polarity := polarity, width := width, logic := false, countdown := 0 }

/-- SOFT_RESET of a line (R158). -/
def Line.softReset (l : Line) : Line :=
  match l.mode with
  | .level => { l with logic := l.software, countdown := 0 }
  | .pulse | .toggle | .busy => { l with logic := false, countdown := 0 }

end Sys2Proof.Machine
end

