-- ==== Sys2Proof/Machine/Operands.lean ====
section
/-! DEFINITION. The forms of requests and configuration contents: lanes, the words of a request, the classifier
(Section 1.2), overlays (Section 5.2), memory answers (R133), and the meaning of the coded fields of a PUT (Section 10.7). -/

namespace Sys2Proof.Machine

/-! ## Lanes -/

/-- The lanes of `m` from `new`, the other lanes from `old`. -/
def mergeLanes (m : LaneMask) (new old : Word) : Word :=
  ⟨if m.lane0 then new.lane0 else old.lane0, if m.lane1 then new.lane1 else old.lane1,
   if m.lane2 then new.lane2 else old.lane2, if m.lane3 then new.lane3 else old.lane3⟩

/-- The union of two lane masks. -/
def uniteLanes (a b : LaneMask) : LaneMask :=
  ⟨a.lane0 || b.lane0, a.lane1 || b.lane1, a.lane2 || b.lane2, a.lane3 || b.lane3⟩

/-! ## Words of a request -/

/-- The `n` word addresses from `a` on, at steps of 4, modulo 2^32 (R7). -/
def wordsFrom (a : Addr) (n : Nat) : List Addr := (List.range n).map (fun i => a + BitVec.ofNat 32 (4 * i))

/-- The words of a request, in burst order (R7). -/
def requestWords (r : Request) : List Addr := wordsFrom r.addr r.count.toNat

/-- The words of a write with their beats: beat i belongs to the i-th word (R7). -/
def requestBeats (r : Request) : List (Addr × Beat) := (requestWords r).zip r.beats

/-- An address with its two least significant bits set to 0. -/
def wordAddress (a : Addr) : Addr := a &&& ~~~3#32

/-- The words over which a monitor sees a request: from its word address, *burst count* words, or one when the count
is 0 (R143). -/
def monitoredWords (r : Request) : List Addr :=
  wordsFrom (wordAddress r.addr) (if r.count = 0 then 1 else r.count.toNat)

/-! ## Windows and the classifier -/

/-- Whether a window covers an address (R2). -/
def Window.covers (w : Window) (a : Addr) : Bool :=
  w.enabled && decide (w.base.toNat ≤ a.toNat) && decide (a.toNat < w.base.toNat + 256 * w.size)

/-- Whether two ranges of 256-byte units share an address (R3). -/
def rangesMeet (base1 : Addr) (size1 : Nat) (base2 : Addr) (size2 : Nat) : Bool :=
  decide (base1.toNat < base2.toNat + 256 * size2) && decide (base2.toNat < base1.toNat + 256 * size1)

/-- The window that holds a word (R2). -/
def windowOf (ws : Eight Window) (a : Addr) : Option (Fin 8) := eight.find? (fun n => (ws.get n).covers a)

/-- The class a window gives (R8). -/
def windowClass (ws : Eight Window) (n : Fin 8) : ReqClass :=
  match (ws.get n).kind with
  | .staged => .staged n (ws.get n).group (ws.get n).forward (ws.get n).policy
  | .locked => .locked n

/-- The SPAN check and the classes of R8: none is a failed check. -/
def spanClass (ws : Eight Window) (words : List Addr) : Option ReqClass :=
  match words with
  | [] => some .outside
  | a :: rest =>
    match windowOf ws a with
    | none => if rest.all (fun b => windowOf ws b == none) then some .outside else none
    | some n => if rest.all (fun b => windowOf ws b == some n) then some (windowClass ws n) else none

/-- The ALIGN check of R7: either of the two least significant address bits is 1. -/
def misaligned (r : Request) : Bool := r.addr &&& 3#32 != 0

/-- The LENGTH check of R7: burst count 0 or 9 to 15. -/
def badLength (r : Request) : Bool := r.count == 0 || decide (8 < r.count.toNat)

/-- What the classifier says of a request: a code of R6, or its class. -/
inductive Verdict where
  | refused (c : RespCode)
  | placed (c : ReqClass)
  deriving DecidableEq, Repr

/-- The classifier (R6 to R9): ALIGN, then LENGTH, then, outside BYPASS, SPAN and the classes. -/
def classify (mode : DeviceMode) (ws : Eight Window) (r : Request) : Verdict :=
  if misaligned r then .refused .align
  else if badLength r then .refused .length
  else
    match mode with
    | .bypass => .placed .bypassed
    | .active | .leaving =>
      match spanClass ws (requestWords r) with
      | none => .refused .span
      | some c => .placed c

/-! ## Overlays -/

/-- An entry of group `g` with role `role` at word address `a`. -/
def Entry.at (g : Fin 4) (role : Role) (a : Addr) (e : Entry) : Bool :=
  e.group == g && e.role == role && e.addr == a

/-- The part that copies an entry's data and lane mask (R84). -/
def Entry.part (e : Entry) : OverlayPart := ⟨e.data, e.mask⟩

/-- The overlay source of word `a` for group `g` (R84). -/
def overlayOf (q : List Entry) (g : Fin 4) (a : Addr) : Overlay where
  sealedPart := (q.find? (Entry.at g .sealed a)).map Entry.part
  openPart := (q.find? (Entry.at g .opened a)).map Entry.part

/-- The lanes a part covers; an absent part covers none. -/
def partMask (p : Option OverlayPart) : LaneMask := (p.map OverlayPart.mask).getD LaneMask.none

/-- Whether a word is fully covered by its overlay source (R84). -/
def Overlay.full (o : Overlay) : Bool := uniteLanes (partMask o.sealedPart) (partMask o.openPart) == LaneMask.full

/-- A word with a part laid over it. -/
def layPart (p : Option OverlayPart) (w : Word) : Word :=
  match p with
  | none => w
  | some p => mergeLanes p.mask p.data w

/-- A memory word overlaid first by the sealed part and then by the open part (R85). -/
def Overlay.lay (o : Overlay) (w : Word) : Word := layPart o.openPart (layPart o.sealedPart w)

/-! ## Memory answers -/

/-- Exactly `n` data beats: beats beyond are ignored, missing beats hold 0x00 in each lane (R133). -/
def fitBeats (n : Nat) (data : List Word) : List Word := (List.range n).map (fun i => data.getD i Word.zero)

/-- The response to a pass-through request, from the memory's answer (R128). -/
def passResponse (r : Request) (a : AnswerStatus) (data : List Word) : Response :=
  match a, r.kind with
  | .error, _ => ⟨.memory, []⟩
  | .ok, .read => ⟨.ok, fitBeats r.count.toNat data⟩
  | .ok, .write => ⟨.ok, []⟩

/-- The response to a forwarded read, from the memory's answer and the snapshot (R89, R92). -/
def forwardResponse (r : Request) (snap : List Overlay) (a : AnswerStatus) (data : List Word) : Response :=
  match a with
  | .error => ⟨.memory, []⟩
  | .ok => ⟨.ok, List.zipWith Overlay.lay snap (fitBeats r.count.toNat data)⟩

/-! ## Coded fields (Section 10.7) -/

/-- A yes/no field in a PUT: 0x00 is no, every other value is yes (R176). -/
def yes (b : Byte) : Bool := b != 0

/-- A yes/no field as it reads (R176). -/
def yesByte (b : Bool) : Byte := if b then 1 else 0

/-- A number 0 to 3 carried in a byte. -/
def index4 (b : Byte) : Option (Fin 4) := if h : b.toNat < 4 then some ⟨b.toNat, h⟩ else none

/-- The codes of *kind* (Section 10.7.2). -/
def WindowKind.ofByte (b : Byte) : Option WindowKind :=
  if b = 0 then some .staged else if b = 1 then some .locked else none

/-- The codes of *full policy* (Section 10.7.2). -/
def FullPolicy.ofByte (b : Byte) : Option FullPolicy :=
  if b = 0 then some .stall else if b = 1 then some .refuse else none

/-- The window entry a PUT carries, or none when step 1 of R3 answers BAD_VALUE. -/
def windowOfRaw (v : WindowRaw) : Option Window :=
  if v.base.toNat % 256 ≠ 0 ∨ v.size = 0 ∨ 65536 < v.size.toNat ∨ 2 ^ 32 < v.base.toNat + 256 * v.size.toNat then none
  else
    match WindowKind.ofByte v.kind, index4 v.group, FullPolicy.ofByte v.policy with
    | some k, some g, some p => some ⟨yes v.enabled, v.base, v.size.toNat, k, g, yes v.forward, p⟩
    | _, _, _ => none

/-- The codes of an edge choice (Sections 10.7.3 and 10.7.5): the low bits of a sync source code too. -/
def Edge.ofByte (b : Byte) : Option Edge :=
  if b = 1 then some .rising else if b = 2 then some .falling else if b = 3 then some .both else none

/-- The set of seal sources held as bits; bits 4 to 7 set are a code with no meaning (Section 10.7.3). -/
def SealSources.ofByte (b : Byte) : Option SealSources :=
  if b.toNat < 16 then some ⟨b.getLsbD 0, b.getLsbD 1, b.getLsbD 2, b.getLsbD 3⟩ else none

/-- The group configuration a PUT carries, or none when step 1 of R14 answers BAD_VALUE. -/
def groupCfgOfRaw (v : GroupCfgRaw) : Option GroupCfg :=
  if v.quota = 0 ∨ 512 < v.quota.toNat ∨ 4095 < v.timeout.toNat then none
  else
    match SealSources.ofByte v.sources, Edge.ofByte v.edge with
    | some src, some e => some ⟨v.quota.toNat, v.timeout.toNat, src, e, yes v.sealEmpty⟩
    | _, _ => none

/-- The codes of a timer mode (Section 10.7.5). -/
def TimerMode.ofByte (b : Byte) : Option TimerMode :=
  if b = 0 then some .up else if b = 1 then some .down else if b = 2 then some .upDown else none

/-- The count source of a source code and k (Section 10.7.5). k is checked for TICK only (R112). -/
def CountSource.ofBytes (src k : Byte) : Option CountSource :=
  if src = 0 then (if h : k.toNat < 16 then some (.tick ⟨k.toNat, h⟩) else none)
  else if src = 0x11 then some (.sync .rising)
  else if src = 0x12 then some (.sync .falling)
  else if src = 0x13 then some (.sync .both)
  else none

/-- The five configuration fields of a timer (R112). -/
structure TimerCfg where
  mode    : TimerMode
  oneShot : Bool
  source  : CountSource
  period  : BitVec 16
  matchAt : BitVec 16
  deriving DecidableEq, Repr

/-- The timer configuration a PUT carries, or none when step 1 of R112 answers BAD_VALUE. -/
def timerCfgOfRaw (v : TimerCfgRaw) : Option TimerCfg :=
  if v.period = 0 then none
  else
    match TimerMode.ofByte v.mode, CountSource.ofBytes v.source v.k with
    | some m, some src => some ⟨m, yes v.oneShot, src, v.period, v.matchAt⟩
    | _, _ => none

/-- The set of streams held as bits; bits 3 to 7 set are a code with no meaning (Section 10.7.8). -/
def StreamSet.ofByte (b : Byte) : Option StreamSet :=
  if b.toNat < 8 then some ⟨b.getLsbD 0, b.getLsbD 1, b.getLsbD 2⟩ else none

/-- The set of kinds held as bits; bits 2 to 7 set are a code with no meaning (Section 10.7.8). -/
def KindSet.ofByte (b : Byte) : Option KindSet :=
  if b.toNat < 4 then some ⟨b.getLsbD 0, b.getLsbD 1⟩ else none

/-- The monitor configuration a PUT carries, or none when R142 answers BAD_VALUE. -/
def monCfgOfRaw (v : MonCfgRaw) : Option MonCfg :=
  if v.low &&& 3#32 ≠ 0 ∨ v.high &&& 3#32 ≠ 0 ∨ v.high.toNat < v.low.toNat then none
  else
    match StreamSet.ofByte v.streams, KindSet.ofByte v.kinds, index4 v.stamp with
    | some st, some k, some g => some ⟨yes v.enabled, v.low, v.high, st, k, g⟩
    | _, _, _ => none

/-- The codes of a line mode (Section 10.7.8). -/
def LineMode.ofByte (b : Byte) : Option LineMode :=
  if b = 0 then some .level else if b = 1 then some .pulse
  else if b = 2 then some .toggle else if b = 3 then some .busy else none

/-- The codes of a polarity (Section 10.7.8). -/
def Polarity.ofByte (b : Byte) : Option Polarity :=
  if b = 0 then some .activeHigh else if b = 1 then some .activeLow else none

/-- The group and level of a SET_CMT argument, or none when R153 and R175 answer BAD_VALUE. -/
def setCmtArg (arg : Byte) : Option (Fin 4 × Bool) :=
  match index4 (arg &&& 0x0F) with
  | none => none
  | some g => if arg >>> 4 = 0 then some (g, false) else if arg >>> 4 = 1 then some (g, true) else none

end Sys2Proof.Machine
end

