-- ==== Sys2Proof/Machine/Ops.lean ====
section
/-! DEFINITION. The shared operations of the staging path: ports and slots, admission, seals, drains and completions,
monitors, grants and answers, and the resets. Each meaning calls these; none is written twice. -/

namespace Sys2Proof.Machine

/-! ## Updates of one record of a table -/

/-- Group `g` changed by `f`. -/
def State.modGroup (g : Fin 4) (f : GroupRec → GroupRec) (s : State) : State := { s with groups := s.groups.modify g f }

/-- Timer `t` changed by `f`. -/
def State.modTimer (t : Fin 4) (f : Timer → Timer) (s : State) : State := { s with timers := s.timers.modify t f }

/-- Commit line `g` changed by `f`. -/
def State.modLine (g : Fin 4) (f : Line → Line) (s : State) : State := { s with lines := s.lines.modify g f }

/-- The group record of `g`. -/
def State.group (s : State) (g : Fin 4) : GroupRec := s.groups.get g

/-- The timer `t`. -/
def State.timer (s : State) (t : Fin 4) : Timer := s.timers.get t

/-- The port `p`. -/
def State.port (s : State) (p : PortId) : Port :=
  match p with
  | .hp => s.hp
  | .cp => s.cp

/-- Port `p` replaced. -/
def State.setPort (p : PortId) (x : Port) (s : State) : State :=
  match p with
  | .hp => { s with hp := x }
  | .cp => { s with cp := x }

/-! ## Slots and heads (Section 7.2) -/

/-- A slot in the waiting or head phase. -/
def Slot.active (sl : Slot) : Bool :=
  match sl.phase with
  | .waiting | .head _ _ => true
  | .issued | .answered _ => false

/-- The head of a port: its oldest request in the waiting or head phase (R124). -/
def Port.head? (p : Port) : Option Slot := p.slots.find? Slot.active

/-- The slots with the head's phase replaced. -/
def replaceHead (ph : SlotPhase) : List Slot → List Slot
  | [] => []
  | sl :: rest => if sl.active then { sl with phase := ph } :: rest else sl :: replaceHead ph rest

/-- The port with its head's phase replaced. -/
def Port.setHead (ph : SlotPhase) (p : Port) : Port := { p with slots := replaceHead ph p.slots }

/-- The head of port `p` moves to phase `ph`. -/
def State.setHead (p : PortId) (ph : SlotPhase) (s : State) : State := s.setPort p ((s.port p).setHead ph)

/-- A slot that holds no request; among several, the lowest (log entry 8). -/
def freeSlot (slots : List Slot) : Fin 4 := (four.find? (fun i => slots.all (fun sl => sl.id != i))).getD 0

/-- A request is taken whole into a free slot (R123). -/
def Port.accept (r : Request) (p : Port) : Port := { p with slots := p.slots ++ [⟨freeSlot p.slots, r, .waiting⟩] }

/-- The offered requests are accepted in order while a slot is free; the others go on waiting (R123). -/
def acceptOffered : List Request → Port → Port
  | [], p => { p with offered := [] }
  | r :: rest, p =>
    if p.slots.length < Config.portSlots then acceptOffered rest (p.accept r) else { p with offered := r :: rest }

/-- A write with a held role at the head of the Host Port: its request, class, cause and timer. -/
structure HeldWrite where
  req   : Request
  cls   : ReqClass
  cause : HoldCause
  timer : Option Nat
  deriving DecidableEq, Repr

/-- The held write of the Host Port, if any (Section 2.3). -/
def State.held (s : State) : Option HeldWrite :=
  match s.hp.head? with
  | some sl =>
    match sl.phase with
    | .head cls (.held cause timer) => some ⟨sl.req, cls, cause, timer⟩
    | .head _ .passThrough | .head _ .forwarded | .waiting | .issued | .answered _ => none
  | none => none

/-! ## Access monitors (Chapter 8) -/

/-- Whether a stream is in a stream set. -/
def StreamSet.has (x : StreamSet) (r : Requester) : Bool :=
  match r with
  | .hp => x.hp
  | .cp => x.cp
  | .ce => x.ce

/-- Whether a kind is in a kind set. -/
def KindSet.has (x : KindSet) (k : Kind) : Bool :=
  match k with
  | .read => x.read
  | .write => x.write

/-- The first word of an access that lies in a monitor's range, when the access hits the monitor (R143). -/
def MonCfg.spots (c : MonCfg) (stream : Requester) (k : Kind) (words : List Addr) : Option Addr :=
  if c.enabled && c.streams.has stream && c.kinds.has k then
    words.find? (fun a => decide (c.low.toNat ≤ a.toNat) && decide (a.toNat ≤ c.high.toNat))
  else none

/-- A hit: the counts and the capture record (R146). -/
def Monitor.hit (c : Capture) (m : Monitor) : Monitor :=
  { m with
    hits := min (m.hits + 1) 65535
    overwrites := if m.capture.full then min (m.overwrites + 1) 255 else m.overwrites
    capture := c }

/-- Monitor `m` sees an access (R143, R146, R147). -/
def seenBy (stream : Requester) (k : Kind) (words : List Addr) (s : State) (m : Fin 4) : State :=
  match (s.monitors.get m).cfg.spots stream k words with
  | none => s
  | some a =>
    let mon := s.monitors.get m
    let st := mon.cfg.stamp
    { s with
      monitors := s.monitors.set m
        (mon.hit ⟨true, stream, k, a, (s.timer st).counter, (s.group st).openEpoch⟩)
      events := s.events.causes (if mon.capture.full then [.hit m, .captureOverwrite] else [.hit m]) }

/-- An access is seen by the four monitors (R149). -/
def observe (stream : Requester) (k : Kind) (words : List Addr) (s : State) : State :=
  four.foldl (seenBy stream k words) s

/-! ## Admission (Section 2.2) -/

/-- Whether group `g` has an OPEN entry at word `a`. -/
def openAt (q : List Entry) (g : Fin 4) (a : Addr) : Bool := q.any (Entry.at g .opened a)

/-- Whether a word of a write counts toward its need (R24). -/
def countsAsNeed (q : List Entry) (g : Fin 4) (w : Addr × Beat) : Bool :=
  w.2.mask != LaneMask.none && !openAt q g w.1

/-- The *need* of a write of group `g` (R24). -/
def need (q : List Entry) (g : Fin 4) (r : Request) : Nat := ((requestBeats r).filter (countsAsNeed q g)).length

/-- The admission test of R25. -/
def admissible (s : State) (g : Fin 4) (r : Request) : Bool :=
  decide (need s.queue g r + ((s.group g).openCount + (s.group g).sealedCount) ≤ (s.group g).cfg.quota) &&
  decide (need s.queue g r + s.queue.length ≤ Config.queueSize)

/-- A beat coalesces into an OPEN entry (R26). -/
def Entry.coalesce (b : Beat) (e : Entry) : Entry :=
  { e with data := mergeLanes b.mask b.data e.data, mask := uniteLanes e.mask b.mask }

/-- The entry a beat creates (R26). -/
def newEntry (g : Fin 4) (a : Addr) (b : Beat) : Entry :=
  ⟨g, .opened, a, mergeLanes b.mask b.data Word.zero, b.mask, .notIssued⟩

/-- One word of an admitted write (R26). -/
def admitWord (g : Fin 4) (q : List Entry) (w : Addr × Beat) : List Entry :=
  if w.2.mask = LaneMask.none then q
  else if openAt q g w.1 then q.map (fun e => if e.at g .opened w.1 then e.coalesce w.2 else e)
  else q ++ [newEntry g w.1 w.2]

/-- The queue after the admission of a write, word by word in beat order (R26). -/
def admitWords (g : Fin 4) (r : Request) (q : List Entry) : List Entry := (requestBeats r).foldl (admitWord g) q

/-- A write of group `g` is admitted whole: each created entry raises the *open count* by one (R26). -/
def admitWrite (g : Fin 4) (r : Request) (s : State) : State :=
  { s with
    queue := admitWords g r s.queue
    groups := s.groups.modify g (fun x =>
      { x with openCount := x.openCount + ((admitWords g r s.queue).length - s.queue.length) }) }

/-- The hold timer's start value for a *stall timeout*: none for 0, which waits without limit (R30). -/
def holdTicks (timeout : Nat) : Option Nat := if timeout = 0 then none else some timeout

/-- The head phase a host write takes when it is offered to admission (R25, R27, R29, R30). -/
def offerPhase (cls : ReqClass) (g : Fin 4) (policy : FullPolicy) (r : Request) (s : State) : SlotPhase :=
  if admissible s g r then .answered ⟨.ok, []⟩
  else
    match policy with
    | .refuse => .answered ⟨.full g, []⟩
    | .stall => .head cls (.held .admission (holdTicks (s.group g).cfg.stallTimeout))

/-- A host write at the HP head is offered to admission. -/
def offerAdmission (cls : ReqClass) (g : Fin 4) (policy : FullPolicy) (r : Request) (s : State) : State :=
  (if admissible s g r then admitWrite g r s else s).setHead .hp (offerPhase cls g policy r s)

/-- The admission of the write held for admission is retried (R31). -/
def retryAdmission (s : State) : State :=
  match s.held with
  | some h =>
    if h.cause = .admission ∧ admissible s h.cls.group h.req = true then
      (admitWrite h.cls.group h.req s).setHead .hp (.answered ⟨.ok, []⟩)
    else s
  | none => s

/-! ## The end of a hold -/

/-- The write held for group `g`, if any, is released as a pass-through write (R36). -/
def releaseHeld (g : Fin 4) (s : State) : State :=
  match s.held with
  | some h => if h.cls.group = g then s.setHead .hp (.head h.cls .passThrough) else s
  | none => s

/-- A write held for the admission of group `g` now waits for DISABLED; its hold timer keeps running (R34). -/
def convertHold (g : Fin 4) (s : State) : State :=
  match s.held with
  | some h => if h.cls.group = g then s.setHead .hp (.head h.cls (.held .disable h.timer)) else s
  | none => s

/-- The last tick of the hold timer is taken: the timer expires, and the held write is answered ERROR FULL (R30, R32). With
more ticks to come, or no timer running, there is no expiry (log entry 14). -/
def expireHold (s : State) : State :=
  match s.held with
  | some h =>
    match h.timer with
    | some n => if n ≤ 1 then s.setHead .hp (.answered ⟨.full h.cls.group, []⟩) else s
    | none => s
  | none => s

/-- A service tick reaches the hold timer: the last tick makes it expire (R30). -/
def tickHold (s : State) : State :=
  match s.held with
  | some h =>
    match h.timer with
    | some n =>
      if n ≤ 1 then expireHold s else s.setHead .hp (.head h.cls (.held h.cause (some (n - 1))))
    | none => s
  | none => s

/-! ## Sealing and drains (Chapters 3 and 4) -/

/-- An OPEN entry of group `g` becomes SEALED (R38). -/
def Entry.sealFor (g : Fin 4) (e : Entry) : Entry :=
  if e.group = g ∧ e.role = .opened then { e with role := .sealed, issue := .notIssued } else e

/-- The group record after a seal (R38, R46). -/
def GroupRec.onSeal (x : GroupRec) : GroupRec :=
  { x with hasSealed := true, sealedCount := x.openCount, openCount := 0, openEpoch := x.openEpoch + 1 }

/-- A seal of group `g`, before the start test it brings (R47). -/
def sealCore (g : Fin 4) (s : State) : State :=
  { s with
    queue := s.queue.map (Entry.sealFor g)
    groups := s.groups.modify g GroupRec.onSeal
    commitReq := s.commitReq ++ [g]
    events := s.events.cause (.sealed g)
    lines := s.lines.modify g Line.onSeal }

/-- Every group is DISABLED. -/
def allDisabled (gs : Four GroupRec) : Bool := four.all (fun g => (gs.get g).state == .disabled)

/-- In LEAVING, the part checks whether every group is DISABLED (R180). -/
def leavingCheck (s : State) : State :=
  if s.mode = .leaving ∧ allDisabled s.groups = true then
    { s with mode := .bypass, events := s.events.cause .bypassReached }
  else s

/-- Group `g` reaches DISABLED: the write held for it is released, and the mode is checked (R18, R36, R180). -/
def reachDisabled (g : Fin 4) (s : State) : State :=
  leavingCheck (releaseHeld g (s.modGroup g (fun x => { x with state := .disabled })))

/-- The group record at a completion (R74, step 1). -/
def GroupRec.onCompletion (x : GroupRec) : GroupRec := { x with lastCommitted := x.openEpoch - 1, hasSealed := false }

/-- Steps 1 to 4 of a completion of group `g` (R74). -/
def completeCore (g : Fin 4) (s : State) : State :=
  { s with
    groups := s.groups.modify g GroupRec.onCompletion
    events := s.events.cause (.committed g)
    lines := s.lines.modify g Line.onCompletion
    engine := { s.engine with state := .idle } }

/-- Step 5 of a completion: a STOPPING group makes its final seal or reaches DISABLED (R58). -/
def completeStopping (g : Fin 4) (s : State) : State :=
  if (s.group g).state = .stopping then
    if 0 < (s.group g).openCount then sealCore g s else reachDisabled g s
  else s

/-- Steps 1 to 5 of the completion of the drain of group `g` (R74). -/
def finishDrain (g : Fin 4) (s : State) : State := completeStopping g (completeCore g s)

/-- Whether a SEALED entry of group `g` remains in the queue. -/
def hasSealedEntry (q : List Entry) (g : Fin 4) : Bool := q.any (fun e => e.group == g && e.role == .sealed)

/-- Whether a commit write of group `g`'s drain is outstanding; orphans do not count (R73). -/
def writeOutstanding (l : List IssueRec) (g : Fin 4) : Bool :=
  l.any (fun r => r.requester == .ce && !r.orphan && r.entry.any (fun x => x.group == g))

/-- The condition of R73 for the group being drained. -/
def drainDone (g : Fin 4) (s : State) : Bool := !hasSealedEntry s.queue g && !writeOutstanding s.issue g

/-- The head group is taken from the commit request queue and its drain begins (R63). -/
def beginDrain (g : Fin 4) (rest : List (Fin 4)) (s : State) : State :=
  { s with commitReq := rest, engine := { s.engine with state := .draining g, retry := [] } }

/-- The start test of R63, with the completion at the start of an epoch that has nothing to write (R63) and the start
test that follows each completion (R74, step 6). The first argument bounds the number of starts. -/
def startTest : Nat → State → State
  | 0, s => s
  | n + 1, s =>
    match s.engine.state, s.commitReq with
    | .idle, g :: rest =>
      if s.chold then s
      else if drainDone g (beginDrain g rest s) then startTest n (finishDrain g (beginDrain g rest s))
      else beginDrain g rest s
    | .idle, [] => s
    | .draining _, _ => s

/-- The engine tests for a start. Each start takes a group from the queue, and a final seal can add each group once, so
this many starts are enough. -/
def testStart (s : State) : State := startTest (s.commitReq.length + 5) s

/-- A seal of group `g` and the start test it brings (R47, R63). -/
def sealGroup (g : Fin 4) (s : State) : State := testStart (sealCore g s)

/-- The engine tests for completion (R73, R74). -/
def testCompletion (s : State) : State :=
  match s.engine.state with
  | .draining g => if drainDone g s then testStart (finishDrain g s) else s
  | .idle => s

/-- DISABLE_GROUP applied to a RUNNING or FAULTED group (R18, R34, R57). -/
def disableGroup (g : Fin 4) (s : State) : State :=
  if (s.group g).openCount = 0 ∧ (s.group g).sealedCount = 0 ∧ (s.group g).hasSealed = false then reachDisabled g s
  else
    let s1 := convertHold g (s.modGroup g (fun x => { x with state := .stopping }))
    if (s.group g).hasSealed = false ∧ 0 < (s.group g).openCount then sealGroup g s1 else s1

/-- A boundary event reaches the seal logic of group `g` (R50 to R52). -/
def boundary (g : Fin 4) (s : State) : State :=
  match (s.group g).state with
  | .running =>
    if (s.group g).hasSealed then
      (s.modGroup g (fun x => { x with overruns := min (x.overruns + 1) 255 })).cause (.overrun g)
    else if 0 < (s.group g).openCount ∨ (s.group g).cfg.sealEmpty = true then sealGroup g s
    else s
  | .disabled | .faulted | .stopping => s

/-! ## Processing a port head (Chapters 1, 2, 5 and 7) -/

/-- The head phase of a forwarded read at its processing: answered from staging alone when every word is fully covered
(R86), else it needs the memory (R87). -/
def forwardPhase (cls : ReqClass) (g : Fin 4) (r : Request) (s : State) : SlotPhase :=
  if ((requestWords r).map (overlayOf s.queue g)).all Overlay.full then
    .answered ⟨.ok, ((requestWords r).map (overlayOf s.queue g)).map (fun o => o.lay Word.zero)⟩
  else .head cls .forwarded

/-- A host request of class `cls` is handled as R10 gives. -/
def handleHost (cls : ReqClass) (r : Request) (s : State) : State :=
  match cls with
  | .bypassed | .outside => s.setHead .hp (.head cls .passThrough)
  | .locked _ =>
    match r.kind with
    | .write => s.setHead .hp (.answered ⟨.locked, []⟩)
    | .read => s.setHead .hp (.head cls .passThrough)
  | .staged _ g forward policy =>
    match (s.group g).state, r.kind with
    | .disabled, _ => s.setHead .hp (.head cls .passThrough)
    | .running, .write | .faulted, .write => offerAdmission cls g policy r s
    | .stopping, .write => s.setHead .hp (.head cls (.held .disable none))
    | .running, .read | .faulted, .read | .stopping, .read =>
      if forward then s.setHead .hp (forwardPhase cls g r s) else s.setHead .hp (.head cls .passThrough)

/-- A consumer request of class `cls` is handled as R11 gives. -/
def handleConsumer (cls : ReqClass) (r : Request) (s : State) : State :=
  match cls, r.kind with
  | .locked _, .write => s.setHead .cp (.answered ⟨.locked, []⟩)
  | .staged _ g _ _, .write =>
    if (s.group g).state = .disabled then s.setHead .cp (.head cls .passThrough)
    else s.setHead .cp (.answered ⟨.locked, []⟩)
  | _, _ => s.setHead .cp (.head cls .passThrough)

/-- The stream, and the requester, of a port. -/
def PortId.requester : PortId → Requester
  | .hp => .hp
  | .cp => .cp

/-- The single examination of a request at its port head (R6, R124). -/
def examine (p : PortId) (r : Request) (s : State) : State :=
  match classify s.mode s.windows r with
  | .refused c => s.setHead p (.answered ⟨c, []⟩)
  | .placed cls =>
    match p with
    | .hp => handleHost cls r s
    | .cp => handleConsumer cls r s

/-- The head of port `p` is processed, once: the monitors see it, then it is examined (R124, R144). -/
def processHead (p : PortId) (s : State) : State :=
  match (s.port p).head? with
  | some sl =>
    match sl.phase with
    | .waiting => examine p sl.req (observe (PortId.requester p) sl.req.kind (monitoredWords sl.req) s)
    | .head _ _ | .issued | .answered _ => s
  | none => s

/-- The re-examination of the HP head when group `g` is enabled (R12). -/
def reexamineHost (g : Fin 4) (s : State) : State :=
  match s.hp.head? with
  | some sl =>
    match sl.phase with
    | .head _ .passThrough =>
      match spanClass s.windows (requestWords sl.req) with
      | none => s.setHead .hp (.answered ⟨.span, []⟩)
      | some (.staged n h forward policy) =>
        if h = g then
          match sl.req.kind with
          | .write => offerAdmission (.staged n h forward policy) g policy sl.req s
          | .read => if forward then s.setHead .hp (forwardPhase (.staged n h forward policy) g sl.req s) else s
        else s
      | some .bypassed | some .outside | some (.locked _) => s
    | .head _ .forwarded | .head _ (.held _ _) | .waiting | .issued | .answered _ => s
  | none => s

/-- The re-examination of the CP head when group `g` is enabled: writes only (R12). -/
def reexamineConsumer (g : Fin 4) (s : State) : State :=
  match s.cp.head? with
  | some sl =>
    match sl.phase, sl.req.kind with
    | .head _ .passThrough, .write =>
      match spanClass s.windows (requestWords sl.req) with
      | none => s.setHead .cp (.answered ⟨.span, []⟩)
      | some (.staged _ h _ _) => if h = g then s.setHead .cp (.answered ⟨.locked, []⟩) else s
      | some .bypassed | some .outside | some (.locked _) => s
    | _, _ => s
  | none => s

/-! ## Grants (Section 7.4) -/

/-- Whether a consumer request is fenced: a read with a word in an enabled STAGED window of the group being drained
(R94). -/
def fenced (s : State) (r : Request) : Bool :=
  match s.engine.state with
  | .idle => false
  | .draining g =>
    r.kind == .read && (requestWords r).any (fun a =>
      match windowOf s.windows a with
      | some n => (s.windows.get n).kind == .staged && (s.windows.get n).group == g
      | none => false)

/-- The head of a port that needs the memory (R127), and whether it is a forwarded read. -/
def Port.memoryHead (p : Port) : Option (Slot × Bool) :=
  match p.head? with
  | some sl =>
    match sl.phase with
    | .head _ .passThrough => some (sl, false)
    | .head _ .forwarded => some (sl, true)
    | .head _ (.held _ _) | .waiting | .issued | .answered _ => none
  | none => none

/-- The entry the engine offers: the oldest of the retry list, else the oldest SEALED entry not issued (R65). -/
def engineOffer (s : State) : Option Entry :=
  match s.engine.state with
  | .idle => none
  | .draining g =>
    match s.engine.retry with
    | a :: _ => s.queue.find? (Entry.at g .sealed a)
    | [] => s.queue.find? (fun e => e.group == g && e.role == .sealed && e.issue == .notIssued)

/-- Whether a requester waits for the grant (R134). -/
def waits (s : State) (r : Requester) : Bool :=
  match r with
  | .hp => s.hp.memoryHead.isSome
  | .cp => s.cp.memoryHead.any (fun x => !fenced s x.1.req)
  | .ce => (engineOffer s).isSome && decide (s.engine.writeCount < Config.commitWrites)

/-- The order of preference after the requester granted last (R135). -/
def preference (pointer : Requester) : List Requester :=
  match pointer with
  | .hp => [.cp, .ce, .hp]
  | .cp => [.ce, .hp, .cp]
  | .ce => [.hp, .cp, .ce]

/-- The requester the arbiter grants next, if one waits and the issue list has room (R134, R135). While RSTn is asserted
no request is placed on MP (R139). -/
def chosen (s : State) : Option Requester :=
  if s.inReset = false ∧ s.issue.length < Config.issueSize then (preference s.pointer).find? (waits s) else none

/-- A record at the tail of the issue list. -/
def State.placeRecord (r : IssueRec) (s : State) : State := { s with issue := s.issue ++ [r] }

/-- The group whose entries a forwarded head reads. -/
def Slot.group (sl : Slot) : Fin 4 :=
  match sl.phase with
  | .head cls _ => cls.group
  | .waiting | .issued | .answered _ => 0

/-- The overlay snapshot of a forwarded read, built at its grant (R88). -/
def snapshotOf (s : State) (sl : Slot) : List Overlay := (requestWords sl.req).map (overlayOf s.queue sl.group)

/-- The head of port `p` is granted (R131). -/
def grantPort (p : PortId) (sl : Slot) (forwarded : Bool) (s : State) : State :=
  ({ s with pointer := PortId.requester p }.placeRecord
    ⟨PortId.requester p, sl.req, some sl.id, if forwarded then some (snapshotOf s sl) else none, none, false⟩).setHead
    p .issued

/-- The memory request of a commit write (R67). -/
def commitRequest (e : Entry) : Request := ⟨.write, e.addr, 1, [⟨e.data, e.mask⟩]⟩

/-- An entry not yet issued becomes issued. -/
def Entry.markIssued (x : Entry) (e : Entry) : Entry :=
  if e.at x.group .sealed x.addr ∧ e.issue = .notIssued then { e with issue := .issued } else e

/-- A commit write for entry `e` is granted (R67); the monitors see it (R145). -/
def grantEngine (e : Entry) (s : State) : State :=
  observe .ce .write [e.addr]
    { s with
      pointer := .ce
      issue := s.issue ++ [⟨.ce, commitRequest e, none, none, some ⟨e.group, e.addr⟩, false⟩]
      queue := s.queue.map (Entry.markIssued e)
      engine := { s.engine with writeCount := s.engine.writeCount + 1, retry := s.engine.retry.erase e.addr } }

/-- The arbiter makes one grant, if it can (R134). -/
def grant (s : State) : State :=
  match chosen s with
  | none => s
  | some .hp =>
    match s.hp.memoryHead with
    | some (sl, f) => grantPort .hp sl f s
    | none => s
  | some .cp =>
    match s.cp.memoryHead with
    | some (sl, f) => grantPort .cp sl f s
    | none => s
  | some .ce =>
    match engineOffer s with
    | some e => grantEngine e s
    | none => s

/-! ## Answers (Section 7.3 and Section 4.5) -/

/-- The SEALED entry of group `g` at word `a` is removed (R40). -/
def removeSealed (g : Fin 4) (a : Addr) (s : State) : State :=
  { s with
    queue := s.queue.eraseP (Entry.at g .sealed a)
    groups := s.groups.modify g (fun x => { x with sealedCount := x.sealedCount - 1 }) }

/-- The fault record after a drop (R72). -/
def FaultRecord.drop (a : Addr) (epoch : BitVec 16) (f : FaultRecord) : FaultRecord :=
  if f.valid then { f with dropped := min (f.dropped + 1) 255 } else ⟨true, a, epoch, 1⟩

/-- The group record after a drop: the fault record, then the state (R72, R19). -/
def GroupRec.onDrop (a : Addr) (x : GroupRec) : GroupRec :=
  { x with
    fault := x.fault.drop a (x.openEpoch - 1)
    state := if x.state = .running then .faulted else x.state }

/-- The SEALED entry of group `g` at word `a` is dropped (R71, steps 1 to 3). -/
def dropSealed (g : Fin 4) (a : Addr) (s : State) : State :=
  ((removeSealed g a s).modGroup g (GroupRec.onDrop a)).cause (.fault g)

/-- A first ERROR: the entry becomes reissued (R70). -/
def Entry.markReissued (g : Fin 4) (a : Addr) (e : Entry) : Entry :=
  if e.at g .sealed a then { e with issue := .reissued } else e

/-- The retry list with word `a` added, in queue order (R62, R70). -/
def retryWith (q : List Entry) (g : Fin 4) (a : Addr) (retry : List Addr) : List Addr :=
  (q.filter (fun e => e.group == g && e.role == .sealed && (e.addr == a || retry.contains e.addr))).map Entry.addr

/-- A first ERROR to the commit write of word `a` of group `g` (R70). -/
def reissue (g : Fin 4) (a : Addr) (s : State) : State :=
  { s with
    queue := s.queue.map (Entry.markReissued g a)
    engine := { s.engine with retry := retryWith s.queue g a s.engine.retry } }

/-- The memory's answer to a commit write of the current drain (R69, R70, R71). -/
def commitAnswer (r : EntryRef) (ans : AnswerStatus) (s : State) : State :=
  match s.queue.find? (Entry.at r.group .sealed r.addr) with
  | none => s
  | some e =>
    match ans, e.issue with
    | .ok, _ => testCompletion (retryAdmission (removeSealed r.group r.addr s))
    | .error, .reissued => testCompletion (retryAdmission (dropSealed r.group r.addr s))
    | .error, .issued => reissue r.group r.addr s
    | .error, .notIssued => s

/-- An issued slot becomes answered. -/
def Slot.answer (i : Fin 4) (resp : Response) (sl : Slot) : Slot :=
  if sl.id = i ∧ sl.phase = .issued then { sl with phase := .answered resp } else sl

/-- The response that a record's answer gives its port slot (R128, R89, R92). -/
def recordResponse (r : IssueRec) (ans : AnswerStatus) (data : List Word) : Response :=
  match r.snapshot with
  | none => passResponse r.req ans data
  | some snap => forwardResponse r.req snap ans data

/-- The answer of an HP or CP record goes to its slot (R132). -/
def answerPort (p : PortId) (r : IssueRec) (ans : AnswerStatus) (data : List Word) (s : State) : State :=
  match r.slot with
  | none => s
  | some i =>
    s.setPort p { s.port p with slots := (s.port p).slots.map (Slot.answer i (recordResponse r ans data)) }

/-- The oldest record leaves the issue list; a CE record lowers the *commit write count* (R132, R68, R79). -/
def departRecord (r : IssueRec) (rest : List IssueRec) (s : State) : State :=
  { s with
    issue := rest
    engine := if r.requester = .ce then { s.engine with writeCount := s.engine.writeCount - 1 } else s.engine }

/-- The answer of a record that has left the list goes where R132 sends it; an orphan's is absorbed (R138). -/
def routeAnswer (r : IssueRec) (ans : AnswerStatus) (data : List Word) (s : State) : State :=
  if r.orphan then s
  else
    match r.requester with
    | .hp => answerPort .hp r ans data s
    | .cp => answerPort .cp r ans data s
    | .ce =>
      match r.entry with
      | some x => commitAnswer x ans s
      | none => s

/-- The part takes a memory answer as the answer of the oldest record; with no record it is discarded (R132, R133). -/
def takeAnswer (ans : AnswerStatus) (data : List Word) (s : State) : State :=
  match s.issue with
  | [] => s
  | r :: rest => routeAnswer r ans data (departRecord r rest s)

/-! ## Delivery (R126) -/

/-- The flag that the delivery of a response code sets (R126). -/
def RespCode.flag : RespCode → Option EventFlag
  | .ok | .reset => none
  | .align | .length | .span => some .portError
  | .full g => some (.full g)
  | .locked => some .lockedHit
  | .memory => some .memoryError

/-- The flag of a response code, if any, is set. -/
def causeOf (c : RespCode) (s : State) : State :=
  match c.flag with
  | none => s
  | some f => s.cause f

/-- Port `p` delivers the response of its oldest request, when it is answered: the slot is freed, a waiting request is
accepted, and the code's flag is set (R123, R126). -/
def deliver (p : PortId) (s : State) : State :=
  match (s.port p).slots with
  | [] => s
  | sl :: rest =>
    match sl.phase with
    | .answered r =>
      causeOf r.code
        (s.setPort p (acceptOffered (s.port p).offered { s.port p with slots := rest, delivered := some r }))
    | .waiting | .head _ _ | .issued => s

/-- A request arrives at port `p`: it is accepted into a free slot, or waits; while RSTn is asserted it waits (R123, R139). -/
def arrive (p : PortId) (r : Request) (s : State) : State :=
  if s.inReset then s.setPort p { s.port p with offered := (s.port p).offered ++ [r] }
  else s.setPort p (acceptOffered ((s.port p).offered ++ [r]) (s.port p))

end Sys2Proof.Machine
end

