-- ==== Sys2Proof/Machine/TimeOps.lean ====
section
/-! DEFINITION. The shared operations of time and of the input lines: timer steps, the service tick and its generator,
sync transitions and CHOLD (Chapter 6, Section 4.3). -/

namespace Sys2Proof.Machine

/-! ## Timer steps (Sections 6.3 and 6.4) -/

/-- The events a step emits (R107). -/
structure StepEvents where
  wrap : Bool
  peak : Bool
  hit  : Bool
  deriving DecidableEq, Repr

/-- Where a step takes the counter, before any loading: the new counter and direction, and whether the step emits WRAP
or PEAK (R103 to R105). -/
structure Move where
  counter   : BitVec 16
  direction : Direction
  wrap      : Bool
  peak      : Bool
  deriving DecidableEq, Repr

/-- The move of one step, under the period in force (R103, R104, R105). -/
def Timer.move (x : Timer) : Move :=
  match x.mode with
  | .up => if x.counter = x.period then ⟨0, .up, true, false⟩ else ⟨x.counter + 1, .up, false, false⟩
  | .down => if x.counter = 0 then ⟨x.period, .down, true, false⟩ else ⟨x.counter - 1, .down, false, false⟩
  | .upDown =>
    match x.direction with
    | .up => if x.counter + 1 = x.period then ⟨x.counter + 1, .down, false, true⟩ else ⟨x.counter + 1, .up, false, false⟩
    | .down => if x.counter - 1 = 0 then ⟨x.counter - 1, .up, true, false⟩ else ⟨x.counter - 1, .down, false, false⟩

/-- Whether a step emits MATCH: its result equals the match in force, and it is no reload of DOWN mode (R106). -/
def Timer.matches (x : Timer) : Bool :=
  x.move.counter == x.matchAt && !(x.mode == .down && x.move.wrap)

/-- The events of one step (R107). -/
def Timer.emits (x : Timer) : StepEvents := ⟨x.move.wrap, x.move.peak, x.matches⟩

/-- The period in force after a WRAP (R115). -/
def Timer.loadedPeriod (x : Timer) : BitVec 16 := x.periodNext.getD x.period

/-- The timer after one step: at a WRAP the pending values are loaded, a DOWN reload takes the newly loaded period, and
a one-shot timer stops (R108, R115). -/
def Timer.step (x : Timer) : Timer :=
  if x.move.wrap then
    { x with
      counter := if x.mode = .down then x.loadedPeriod else x.move.counter
      direction := x.move.direction
      period := x.loadedPeriod
      matchAt := x.matchNext.getD x.matchAt
      periodNext := none
      matchNext := none
      running := !x.oneShot }
  else { x with counter := x.move.counter, direction := x.move.direction }

/-- Whether a step's events hold one of a group's seal sources (R49). -/
def SealSources.chosenBy (x : SealSources) (e : StepEvents) : Bool :=
  (x.wrap && e.wrap) || (x.peak && e.peak) || (x.hit && e.hit)

/-- A count event reaches timer `t`: a RUNNING timer makes one step, whose events reach the seal logic as at most one
boundary event (R102, R107, R49). -/
def countEvent (t : Fin 4) (s : State) : State :=
  if (s.timer t).running then
    if (s.group t).cfg.sources.chosenBy (s.timer t).emits then boundary t (s.modTimer t Timer.step)
    else s.modTimer t Timer.step
  else s

/-- The preset of R111: the counter goes to its start value under the mode and period in force. -/
def Timer.preset (x : Timer) : Timer :=
  match x.mode with
  | .up | .upDown => { x with counter := 0, direction := .up, prescale := 0 }
  | .down => { x with counter := x.period, direction := .down, prescale := 0 }

/-- SOFT_RESET of a timer (R118). -/
def Timer.softReset (x : Timer) : Timer := { x.preset with running := false, periodNext := none, matchNext := none }

/-! ## The service tick (Section 6.1) -/

/-- The tick reaches the prescaler of timer `t` (R102). -/
def tickTimer (t : Fin 4) (s : State) : State :=
  if (s.timer t).running then
    match (s.timer t).source with
    | .sync _ => s
    | .tick k =>
      if 2 ^ k.val ≤ (s.timer t).prescale + 1 then countEvent t (s.modTimer t (fun x => { x with prescale := 0 }))
      else s.modTimer t (fun x => { x with prescale := x.prescale + 1 })
  else s

/-- The tick reaches one receiver (R100). -/
def tickSink (s : State) (k : TickSink) : State :=
  match k with
  | .timer t => tickTimer t s
  | .hold => tickHold s
  | .line g => s.modLine g Line.onTick

/-- Every receiver of the tick, in a fixed order (R100). -/
def allSinks : List TickSink := four.map .timer ++ (.hold :: four.map .line)

/-- The order in which the receivers take a tick: those named first, in the order of their last naming, then the others. Each takes it exactly
once, whatever `order` is. -/
def tickSchedule (order : List TickSink) : List TickSink :=
  order.dedup ++ allSinks.filter (fun k => !order.contains k)

/-- One service tick: the generator's period starts afresh under the divisor last set, and every receiver takes the
tick (R100, R173). While RSTn is asserted there is no tick. -/
def serviceTick (order : List TickSink) (s : State) : State :=
  if s.inReset then s
  else
    (tickSchedule order).foldl tickSink
      { s with tick := { s.tick with inForce := s.tick.divisor, count := 0 } }

/-- One rising edge of REFCLK: the D-th of the period makes a service tick (R100). The order of its receivers is the
free value of log entry 6. -/
def refclkEdge (s : State) : State :=
  if s.inReset then s
  else if s.tick.count + 1 < s.tick.inForce then { s with tick := { s.tick with count := s.tick.count + 1 } }
  else serviceTick (Config.tickOrder s.freeIndex) { s with freeIndex := s.freeIndex + 1 }

/-! ## Input lines -/

/-- Whether an edge choice takes a transition to `level` (R102, R49). -/
def Edge.takes (e : Edge) (level : Bool) : Bool :=
  match e with
  | .rising => level
  | .falling => !level
  | .both => true

/-- Whether a transition of SYNCt to `level` is a count event of its timer (R120). -/
def countsSync (x : Timer) (level : Bool) : Bool :=
  match x.source with
  | .sync e => e.takes level
  | .tick _ => false

/-- A transition of SYNCt to `level` acts (R120). -/
def syncActs (t : Fin 4) (level : Bool) (s : State) : State :=
  let s1 := if countsSync (s.timer t) level then countEvent t s else s
  if (s.group t).cfg.sources.sync && (s.group t).cfg.syncEdge.takes level then boundary t s1 else s1

/-- SYNCt settles at `level`: a change against the reference level is a transition (R119). While RSTn is asserted only
the level of the line is kept. -/
def syncSettles (t : Fin 4) (level : Bool) (s : State) : State :=
  if s.inReset then { s with syncLine := s.syncLine.set t level }
  else if s.syncRef.get t = level then { s with syncLine := s.syncLine.set t level }
  else syncActs t level { s with syncLine := s.syncLine.set t level, syncRef := s.syncRef.set t level }

/-- CHOLD is now asserted or not; its release brings a start test (R63, R64). -/
def choldSet (asserted : Bool) (s : State) : State :=
  if s.chold && !asserted then testStart { s with chold := asserted } else { s with chold := asserted }

/-! ## Resets (Sections 7.5, 11.3 and 11.4) -/

/-- The management port while RSTn is asserted: a low period of MCSn that has begun is ignored to its end (R170). -/
def Mgmt.hardReset (m : Mgmt) : Mgmt :=
  match m.phase with
  | .idle => Mgmt.reset
  | .request | .reply | .trailer | .ignored => { Mgmt.reset with phase := .ignored }

/-- Power-on, and the assertion of RSTn: every block at its reset values, and the part held there (R139, R182). The
input lines, and the requests their masters still offer, are not the part's to reset. -/
def hardReset (s : State) : State :=
  { State.reset with
    inReset := true
    chold := s.chold
    syncLine := s.syncLine
    hp := { Port.reset with offered := s.hp.offered }
    cp := { Port.reset with offered := s.cp.offered }
    mgmt := s.mgmt.hardReset
    freeIndex := s.freeIndex
    pending := s.pending }

/-- RSTn is released: each sync detector takes its reference, and the ports accept (R182, R119, R139). -/
def releaseReset (s : State) : State :=
  if s.inReset then
    { s with
      inReset := false
      syncRef := s.syncLine
      hp := acceptOffered s.hp.offered s.hp
      cp := acceptOffered s.cp.offered s.cp }
  else s

/-- A slot's request is answered ERROR RESET, in every phase (R137). -/
def Slot.softReset (sl : Slot) : Slot := { sl with phase := .answered ⟨.reset, []⟩ }

/-- A record becomes an orphan: its snapshot is discarded and its entry reference names no entry (R138). -/
def IssueRec.orphaned (r : IssueRec) : IssueRec := { r with snapshot := none, entry := none, orphan := true }

/-- SOFT_RESET (R183). -/
def softReset (s : State) : State :=
  { s with
    mode := .bypass
    groups := s.groups.map (fun x => GroupRec.fresh x.cfg)
    queue := []
    commitReq := []
    engine := { s.engine with state := .idle, retry := [] }
    hp := { s.hp with slots := s.hp.slots.map Slot.softReset }
    cp := { s.cp with slots := s.cp.slots.map Slot.softReset }
    issue := s.issue.map IssueRec.orphaned
    pointer := .ce
    timers := s.timers.map Timer.softReset
    monitors := s.monitors.map (fun x => Monitor.fresh x.cfg)
    lines := s.lines.map Line.softReset
    events := s.events.softReset }

end Sys2Proof.Machine
end

