-- ==== Sys2Proof/Machine/LinkOps.lean ====
section
/-! DEFINITION. The shared operations of the management link (Chapter 10): statuses and replies, what a GET returns, what
each PUT and each action does, and the receiver of request bytes. -/

namespace Sys2Proof.Machine

/-! ## Statuses and replies (R168) -/

/-- The status of a reply (R168). -/
inductive Status where
  | ok
  | busy
  | badValue
  | overlap
  | wrongState
  | wrongMode
  | crc
  | unknown
  | readOnly
  deriving DecidableEq, Repr

/-- The code of a status byte (R168). -/
def Status.code : Status → Byte
  | .ok => 0xC0
  | .busy => 0xC1
  | .badValue => 0xC2
  | .overlap => 0xC3
  | .wrongState => 0xC4
  | .wrongMode => 0xC5
  | .crc => 0xC6
  | .unknown => 0xC7
  | .readOnly => 0xC8

/-- What a taken request is answered: a status alone, or the content of a successful GET (R168). -/
inductive Reply where
  | status (st : Status)
  | content (data : List Byte)
  deriving DecidableEq, Repr

/-- The reply's bytes: a successful GET carries its status, the content and the CRC over both (R166, R168). -/
def Reply.bytes : Reply → List Byte
  | .status st => [st.code]
  | .content d => Status.ok.code :: d ++ [crc8 (Status.ok.code :: d)]

/-- What a request does to the part, and what it is answered. -/
structure Taken where
  state : State
  reply : Reply

/-- A refused request changes nothing (R167). -/
def refuse (st : Status) (s : State) : Taken := ⟨s, .status st⟩

/-- A request with its effect, answered OK. -/
def done (s : State) : Taken := ⟨s, .status .ok⟩

/-- The reply phase begins; while the CRC byte was clocked in, 0x00 was shifted out (R164). -/
def startReply (bytes : List Byte) (s : State) : State :=
  { s with mgmt := ⟨.reply, [], none, bytes, some 0⟩ }

/-- A request of body `body` with CRC byte `crc` is taken: a mismatch is answered CRC and sets MGMT_ERROR; else `op`
gives its effect and its reply (R167). -/
def takeRequest (body : List Byte) (crc : Byte) (op : State → Taken) (s : State) : State :=
  if crc8 body = crc then startReply (op s).reply.bytes (op s).state
  else startReply [Status.crc.code] (s.cause .mgmtError)

/-- A request arrives whole: in the request phase, when the bytes received so far begin it, the rest of its bytes is
clocked in and it is taken. In any other phase, or when other bytes have been received, it is not a request of this
frame, and the part does not take it (R163, R164; log entry 4). -/
def requestArrives (body : List Byte) (crc : Byte) (op : State → Taken) (s : State) : State :=
  if s.mgmt.phase = .request ∧ s.mgmt.received.isPrefixOf body = true then takeRequest body crc op s else s

/-! ## GET (R167, Section 10.7) -/

/-- The codes of *state* (Section 10.7.4). -/
def GroupState.byte : GroupState → Byte
  | .disabled => 0
  | .running => 1
  | .faulted => 2
  | .stopping => 3

/-- The codes of the device mode (Section 10.7.8). -/
def DeviceMode.byte : DeviceMode → Byte
  | .bypass => 0
  | .active => 1
  | .leaving => 2

/-- The codes of *kind* of a window (Section 10.7.2). -/
def WindowKind.byte : WindowKind → Byte
  | .staged => 0
  | .locked => 1

/-- The codes of *full policy* (Section 10.7.2). -/
def FullPolicy.byte : FullPolicy → Byte
  | .stall => 0
  | .refuse => 1

/-- The codes of an edge choice (Section 10.7.3). -/
def Edge.byte : Edge → Byte
  | .rising => 1
  | .falling => 2
  | .both => 3

/-- The codes of a timer mode (Section 10.7.5). -/
def TimerMode.byte : TimerMode → Byte
  | .up => 0
  | .down => 1
  | .upDown => 2

/-- The source and k bytes of a count source; k reads 0x00 for a sync source (Section 10.7.5). -/
def CountSource.bytes : CountSource → List Byte
  | .tick k => [0, BitVec.ofNat 8 k.val]
  | .sync e => [0x10 + e.byte, 0]

/-- The codes of a direction (Section 10.7.8). -/
def Direction.byte : Direction → Byte
  | .up => 0
  | .down => 1

/-- The codes of a stream (Section 10.7.6). -/
def Requester.byte : Requester → Byte
  | .hp => 0
  | .cp => 1
  | .ce => 2

/-- The codes of a kind (Section 10.7.6). -/
def kindByte : Kind → Byte
  | .read => 0
  | .write => 1

/-- The codes of a line mode (Section 10.7.8). -/
def LineMode.byte : LineMode → Byte
  | .level => 0
  | .pulse => 1
  | .toggle => 2
  | .busy => 3

/-- The codes of a polarity (Section 10.7.8). -/
def Polarity.byte : Polarity → Byte
  | .activeHigh => 0
  | .activeLow => 1

/-- A number 0 to 3 as it reads. -/
def indexByte (i : Fin 4) : Byte := BitVec.ofNat 8 i.val

/-- A set held as bits, bit 0 first, as it reads (R176). -/
def setByte (b0 b1 b2 b3 : Bool) : Byte :=
  yesByte b0 ||| (yesByte b1 <<< 1) ||| (yesByte b2 <<< 2) ||| (yesByte b3 <<< 3)

/-- A count in two bytes. -/
def count16 (n : Nat) : List Byte := bytes16 (BitVec.ofNat 16 n)

/-- A count in one byte. -/
def count8 (n : Nat) : Byte := BitVec.ofNat 8 n

/-- The identity of the part: part code 0x0428, revision 0x01, layout version 0x01 (R174). -/
def identBytes : List Byte := [0x04, 0x28, 0x01, 0x01]

/-- The content of WINDOW_n (Section 10.7.2). -/
def Window.bytes (w : Window) : List Byte :=
  yesByte w.enabled :: (bytes32 w.base ++ (bytes32 (BitVec.ofNat 32 w.size) ++
    [w.kind.byte, indexByte w.group, yesByte w.forward, w.policy.byte]))

/-- The content of GROUP_CFG_g (Section 10.7.3). -/
def GroupCfg.bytes (c : GroupCfg) : List Byte :=
  count16 c.quota ++ (count16 c.stallTimeout ++
    [setByte c.sources.wrap c.sources.peak c.sources.hit c.sources.sync, c.syncEdge.byte, yesByte c.sealEmpty])

/-- The content of GROUP_STAT_g (Section 10.7.4). -/
def GroupRec.statBytes (x : GroupRec) : List Byte :=
  x.state.byte :: (bytes16 x.openEpoch ++ (bytes16 x.lastCommitted ++ (yesByte x.hasSealed ::
    (count16 x.openCount ++ (count16 x.sealedCount ++ [count8 x.overruns])))))

/-- The content of FAULT_g (Section 10.7.8). -/
def FaultRecord.bytes (f : FaultRecord) : List Byte :=
  yesByte f.valid :: (bytes32 f.address ++ (bytes16 f.epoch ++ [count8 f.dropped]))

/-- The content of TIMER_CFG_t: the configuration in force (R117, Section 10.7.5). -/
def Timer.cfgBytes (x : Timer) : List Byte :=
  x.mode.byte :: yesByte x.oneShot :: (x.source.bytes ++ (bytes16 x.period ++ bytes16 x.matchAt))

/-- The content of TIMER_STAT_t (Section 10.7.8). -/
def Timer.statBytes (x : Timer) : List Byte :=
  bytes16 x.counter ++ [x.direction.byte, yesByte x.running, setByte x.periodNext.isSome x.matchNext.isSome false false]

/-- The content of MON_CFG_m (Section 10.7.8). -/
def MonCfg.bytes (c : MonCfg) : List Byte :=
  yesByte c.enabled :: (bytes32 c.low ++ (bytes32 c.high ++
    [setByte c.streams.hp c.streams.cp c.streams.ce false, setByte c.kinds.read c.kinds.write false false,
     indexByte c.stamp]))

/-- The content of CAPTURE_m (Section 10.7.6). -/
def Capture.bytes (c : Capture) : List Byte :=
  yesByte c.full :: c.stream.byte :: kindByte c.kind ::
    (bytes32 c.address ++ (bytes16 c.stampCounter ++ bytes16 c.stampEpoch))

/-- The content of MON_COUNT_m (Section 10.7.8). -/
def Monitor.countBytes (m : Monitor) : List Byte := count16 m.hits ++ [count8 m.overwrites]

/-- The content of CMT_CFG_g (Section 10.7.8). -/
def Line.bytes (l : Line) : List Byte :=
  [l.mode.byte, l.polarity.byte, count8 l.width, yesByte l.software, yesByte l.logic]

/-- The *hold* and *hold group* bytes of QUEUE_STAT (R43). -/
def State.holdBytes (s : State) : List Byte :=
  match s.held with
  | none => [0, 0]
  | some h =>
    match h.cause with
    | .admission => [1, indexByte h.cls.group]
    | .disable => [2, indexByte h.cls.group]

/-- The content of an object, sampled together (R167, R172). -/
def objectBytes (o : Obj) (s : State) : List Byte :=
  match o with
  | .ident => identBytes
  | .device => s.mode.byte :: count16 s.tick.divisor
  | .queueStat => count16 s.queue.length ++ s.holdBytes
  | .events => bytes32 (s.events.value.setWidth 32)
  | .eventEn => bytes32 (s.events.enable.setWidth 32)
  | .window n => (s.windows.get n).bytes
  | .groupCfg g => (s.group g).cfg.bytes
  | .groupStat g => (s.group g).statBytes
  | .fault g => (s.group g).fault.bytes
  | .timerCfg t => (s.timer t).cfgBytes
  | .timerStat t => (s.timer t).statBytes
  | .monCfg m => (s.monitors.get m).cfg.bytes
  | .capture m => (s.monitors.get m).capture.bytes
  | .monCount m => (s.monitors.get m).countBytes
  | .cmtCfg g => (s.lines.get g).bytes

/-- The read side effect of a GET: a capture record is no longer full (R148). -/
def readEffect (o : Obj) (s : State) : State :=
  match o with
  | .capture m =>
    { s with monitors := s.monitors.modify m (fun x => { x with capture := { x.capture with full := false } }) }
  | _ => s

/-- A GET that is taken: always OK (R167). -/
def getObject (o : Obj) (s : State) : Taken := ⟨readEffect o s, .content (objectBytes o s)⟩

/-! ## PUT -/

/-- A PUT of DEVICE (R173): the divisor takes effect from the next tick; the mode byte is ignored. -/
def putDevice (v : DeviceRaw) (s : State) : Taken :=
  if v.divisor = 0 ∨ 256 < v.divisor.toNat then refuse .badValue s
  else done { s with tick := { s.tick with divisor := v.divisor.toNat } }

/-- A PUT of EVENTS (R160). -/
def putEvents (v : BitVec 32) (s : State) : Taken := done { s with events := s.events.put v }

/-- A PUT of EVENT_EN (R161). -/
def putEventEn (v : BitVec 32) (s : State) : Taken := done { s with events := s.events.putEnable v }

/-- Whether one side of a window's change is free: no window, a LOCKED one, or one of a DISABLED group (R4). -/
def sideFree (s : State) (w : Window) : Bool :=
  !w.enabled || w.kind == .locked || (s.group w.group).state == .disabled

/-- Whether an enabled window would share an address with another enabled entry (R3, step 3). -/
def overlapsOther (s : State) (n : Fin 8) (w : Window) : Bool :=
  w.enabled && eight.any (fun i =>
    i != n && (s.windows.get i).enabled &&
      rangesMeet w.base w.size (s.windows.get i).base (s.windows.get i).size)

/-- A PUT of WINDOW_n (R3, R4). -/
def putWindow (n : Fin 8) (v : WindowRaw) (s : State) : Taken :=
  match windowOfRaw v with
  | none => refuse .badValue s
  | some w =>
    if sideFree s (s.windows.get n) = false ∨ sideFree s w = false then refuse .busy s
    else if overlapsOther s n w then refuse .overlap s
    else done { s with windows := s.windows.set n w }

/-- Whether a group's seal sources and its timer's source and mode conflict (R14 step 3, R112 step 3). -/
def pairingConflict (x : SealSources) (source : CountSource) (mode : TimerMode) : Bool :=
  (x.sync && match source with
    | .sync _ => true
    | .tick _ => false) || (x.peak && mode != .upDown)

/-- A PUT of GROUP_CFG_g (R14). -/
def putGroupCfg (g : Fin 4) (v : GroupCfgRaw) (s : State) : Taken :=
  match groupCfgOfRaw v with
  | none => refuse .badValue s
  | some c =>
    if (s.group g).state ≠ .disabled then refuse .busy s
    else if pairingConflict c.sources (s.timer g).source (s.timer g).mode then refuse .badValue s
    else done (s.modGroup g (fun x => { x with cfg := c }))

/-- The pending slot after a PUT of a running timer: a value is written to it when it differs from the value in force,
or when the slot is occupied (R114). -/
def nextPending (inForce : BitVec 16) (slot : Option (BitVec 16)) (new : BitVec 16) : Option (BitVec 16) :=
  if new ≠ inForce ∨ slot.isSome = true then some new else none

/-- A PUT of TIMER_CFG_t taken while the timer runs (R114). -/
def Timer.putRunning (c : TimerCfg) (x : Timer) : Timer :=
  { x with
    oneShot := c.oneShot
    periodNext := nextPending x.period x.periodNext c.period
    matchNext := nextPending x.matchAt x.matchNext c.matchAt }

/-- A PUT of TIMER_CFG_t taken while the timer is STOPPED (R113). A *prescale count* of another count source is not
kept: it would lie outside the range of R101 (log entry 9). -/
def Timer.putStopped (c : TimerCfg) (x : Timer) : Timer :=
  let y := { x with
    mode := c.mode, oneShot := c.oneShot, source := c.source, period := c.period, matchAt := c.matchAt
    periodNext := none, matchNext := none
    prescale := if c.source = x.source then x.prescale else 0 }
  if c.mode ≠ x.mode ∨ c.period ≠ x.period then y.preset else y

/-- A PUT of TIMER_CFG_t (R112 to R114). -/
def putTimerCfg (t : Fin 4) (v : TimerCfgRaw) (s : State) : Taken :=
  match timerCfgOfRaw v with
  | none => refuse .badValue s
  | some c =>
    if (s.timer t).running = true ∧ (c.mode ≠ (s.timer t).mode ∨ c.source ≠ (s.timer t).source) then refuse .busy s
    else if pairingConflict (s.group t).cfg.sources c.source c.mode then refuse .badValue s
    else if (s.timer t).running then done (s.modTimer t (Timer.putRunning c))
    else done (s.modTimer t (Timer.putStopped c))

/-- A PUT of MON_CFG_m (R142). -/
def putMonCfg (m : Fin 4) (v : MonCfgRaw) (s : State) : Taken :=
  match monCfgOfRaw v with
  | none => refuse .badValue s
  | some c => done { s with monitors := s.monitors.set m (Monitor.fresh c) }

/-- A PUT of CMT_CFG_g (R157). -/
def putCmtCfg (g : Fin 4) (v : CmtCfgRaw) (s : State) : Taken :=
  match LineMode.ofByte v.mode, Polarity.ofByte v.polarity with
  | some m, some p =>
    if v.width = 0 then refuse .badValue s else done (s.modLine g (Line.configure m p v.width.toNat))
  | _, _ => refuse .badValue s

/-! ## Actions (R175) -/

/-- An action that names a group or timer: a number greater than 3 is refused with BAD_VALUE. -/
def withIndex (arg : Byte) (f : Fin 4 → State → Taken) (s : State) : Taken :=
  match index4 arg with
  | none => refuse .badValue s
  | some g => f g s

/-- ACTIVATE (R178). -/
def activateAction (arg : Byte) (s : State) : Taken :=
  if arg ≠ 0 then refuse .badValue s
  else if s.mode ≠ .bypass then refuse .wrongMode s
  else done { s with mode := .active }

/-- DISABLE_GROUP applied to a group that is RUNNING or FAULTED; another group stays as it is (R179). -/
def windDown (s : State) (g : Fin 4) : State :=
  match (s.group g).state with
  | .running | .faulted => disableGroup g s
  | .disabled | .stopping => s

/-- BYPASS (R179): the groups are put through DISABLE_GROUP in group number order. -/
def bypassAction (arg : Byte) (s : State) : Taken :=
  if arg ≠ 0 then refuse .badValue s
  else if s.mode ≠ .active then refuse .wrongMode s
  else if allDisabled s.groups then done ({ s with mode := .bypass }.cause .bypassReached)
  else done (four.foldl windDown { s with mode := .leaving })

/-- SOFT_RESET (R183). -/
def softResetAction (arg : Byte) (s : State) : Taken :=
  if arg ≠ 0 then refuse .badValue s else done (softReset s)

/-- The state an ENABLE_GROUP gives its group (R17). -/
def GroupRec.enabled (x : GroupRec) : GroupRec := { x with state := if x.fault.valid then .faulted else .running }

/-- ENABLE_GROUP of group `g` (R17), with the re-examination of the port heads (R12). -/
def enableAction (g : Fin 4) (s : State) : Taken :=
  if s.mode ≠ .active then refuse .wrongMode s
  else if (s.group g).state ≠ .disabled then refuse .wrongState s
  else done (reexamineConsumer g (reexamineHost g (s.modGroup g GroupRec.enabled)))

/-- DISABLE_GROUP of group `g` (R18). -/
def disableAction (g : Fin 4) (s : State) : Taken :=
  match (s.group g).state with
  | .running | .faulted => done (disableGroup g s)
  | .disabled | .stopping => refuse .wrongState s

/-- SEAL of group `g` (R55). -/
def sealAction (g : Fin 4) (s : State) : Taken :=
  match (s.group g).state with
  | .disabled | .stopping => refuse .wrongState s
  | .running | .faulted => if (s.group g).hasSealed then refuse .busy s else done (sealGroup g s)

/-- Every OPEN entry of group `g` leaves the queue (R41). -/
def discardOpen (g : Fin 4) (s : State) : State :=
  { s with
    queue := s.queue.filter (fun e => !(e.group == g && e.role == .opened))
    groups := s.groups.modify g (fun x => { x with openCount := 0 }) }

/-- DISCARD of group `g` (R41), with the retry of a held admission (R31). -/
def discardAction (g : Fin 4) (s : State) : Taken :=
  match (s.group g).state with
  | .stopping => refuse .busy s
  | .disabled => refuse .wrongState s
  | .running | .faulted => done (retryAdmission (discardOpen g s))

/-- The group record after CLEAR_FAULT (R19). -/
def GroupRec.clearFault (x : GroupRec) : GroupRec :=
  { x with fault := FaultRecord.reset, state := if x.state = .faulted then .running else x.state }

/-- CLEAR_FAULT of group `g` (R19). -/
def clearFaultAction (g : Fin 4) (s : State) : Taken := done (s.modGroup g GroupRec.clearFault)

/-- TIMER_START of timer `t` (R109). -/
def timerStartAction (t : Fin 4) (s : State) : Taken :=
  if (s.timer t).running then refuse .wrongState s
  else done (s.modTimer t (fun x => { x with running := true, prescale := 0 }))

/-- TIMER_STOP of timer `t` (R110). -/
def timerStopAction (t : Fin 4) (s : State) : Taken :=
  if (s.timer t).running then done (s.modTimer t (fun x => { x with running := false })) else refuse .wrongState s

/-- TIMER_PRESET of timer `t` (R111). -/
def timerPresetAction (t : Fin 4) (s : State) : Taken := done (s.modTimer t Timer.preset)

/-- SET_CMT (R153, R175). -/
def setCmtAction (arg : Byte) (s : State) : Taken :=
  match setCmtArg arg with
  | none => refuse .badValue s
  | some (g, level) => done (s.modLine g (Line.setSoftware level))

/-- A request whose command or number names nothing (R167, check 2). -/
def unknownTaken (s : State) : Taken := ⟨s.cause .mgmtError, .status .unknown⟩

/-! ## The receiver (R164, R165) -/

/-- What a management command does once its CRC byte is found correct (R167). -/
def requestOp (c : Instr) : State → Taken :=
  match c with
  | .get o _ => getObject o
  | .getCapture m _ => getObject (.capture m)
  | .putDevice v _ => putDevice v
  | .putEvents v _ => putEvents v
  | .putEventEn v _ => putEventEn v
  | .putWindow n v _ => putWindow n v
  | .putGroupCfg g v _ => putGroupCfg g v
  | .putTimerCfg t v _ => putTimerCfg t v
  | .putMonCfg m v _ => putMonCfg m v
  | .putCmtCfg g v _ => putCmtCfg g v
  | .activate a _ => activateAction a
  | .bypass a _ => bypassAction a
  | .softReset a _ => softResetAction a
  | .enableGroup a _ => withIndex a enableAction
  | .disableGroup a _ => withIndex a disableAction
  | .sealGroup a _ => withIndex a sealAction
  | .discard a _ => withIndex a discardAction
  | .clearFault a _ => withIndex a clearFaultAction
  | .timerStart a _ => withIndex a timerStartAction
  | .timerStop a _ => withIndex a timerStopAction
  | .timerPreset a _ => withIndex a timerPresetAction
  | .setCmt a _ => setCmtAction a
  | .readOnlyPut _ _ _ => refuse .readOnly
  | .unknownRequest _ _ _ _ | .powerOn | .rstnAssert | .rstnRelease | .requestAccept _ _ | .headProcessing _
  | .memoryGrant | .memoryAnswer _ _ | .drainStart | .responseDelivery _ | .holdTimerExpiry | .serviceTick _
  | .timerStep _ | .pulseEnd _ | .syncTransition _ _ | .choldChange _ | .frameStart | .frameEnd
  | .requestByteReceived _ => unknownTaken

/-- The request bytes received are complete: the request they spell is taken (R167). -/
def takeBytes (bytes : List Byte) (s : State) : State :=
  match decodeRequest bytes with
  | .ok c => takeRequest bytes.dropLast (bytes.getLastD 0) (requestOp c) s
  | .error _ => s

/-- The request length once these bytes are received: the number byte fixes it (R165). -/
def lengthAfter (received : List Byte) (length : Option Nat) : Option Nat :=
  match received with
  | [cmd, num] => some (requestLength cmd num)
  | _ => length

/-- One request byte is received; the one that completes the request has it taken (R165, R167). -/
def receiveRequestByte (b : Byte) (s : State) : State :=
  if lengthAfter (s.mgmt.received ++ [b]) s.mgmt.length = some (s.mgmt.received ++ [b]).length then
    takeBytes (s.mgmt.received ++ [b]) s
  else
    { s with mgmt :=
      { s.mgmt with
        received := s.mgmt.received ++ [b]
        length := lengthAfter (s.mgmt.received ++ [b]) s.mgmt.length
        miso := some 0 } }

/-- One reply byte is shifted out; after the last one the trailer begins (R164). -/
def shiftReply (m : Mgmt) : Mgmt :=
  match m.reply with
  | [] => { m with phase := .trailer, miso := some 0 }
  | [b] => { m with phase := .trailer, reply := [], miso := some b }
  | b :: rest => { m with reply := rest, miso := some b }

/-- One byte is clocked (R163, R164). Outside a frame, and in a low period that is ignored, the part ignores it. -/
def clockByte (b : Byte) (s : State) : State :=
  match s.mgmt.phase with
  | .idle | .ignored => s
  | .request => receiveRequestByte b s
  | .reply => { s with mgmt := shiftReply s.mgmt }
  | .trailer => { s with mgmt := { s.mgmt with miso := some 0 } }

/-- MCSn falls: a frame starts, and every frame mark becomes no (R159, R163). While RSTn is asserted no frame is taken
(R170). MCSn that is low already does not fall. -/
def startFrame (s : State) : State :=
  match s.mgmt.phase with
  | .idle =>
    if s.inReset then { s with mgmt := { Mgmt.reset with phase := .ignored } }
    else { s with mgmt := { Mgmt.reset with phase := .request }, events := s.events.frameStart }
  | .request | .reply | .trailer | .ignored => s

/-- MCSn rises: the frame ends; a frame whose request is not complete is short and sets MGMT_ERROR (R169). -/
def endFrame (s : State) : State :=
  match s.mgmt.phase with
  | .request => { s with mgmt := Mgmt.reset }.cause .mgmtError
  | .reply | .trailer | .ignored => { s with mgmt := Mgmt.reset }
  | .idle => s

end Sys2Proof.Machine
end

