-- ==== Sys2Proof/Machine/Actions.lean ====
section
/-! DEFINITION. The management actions (Section 10.6). -/

namespace Sys2Proof.Machine

/-- ACTIVATE (R178). -/
def execActivate (arg crc : Byte) (s : State) : Host.Outcome State Fault Refusal :=
  .next (requestArrives [cmdDo, MgmtAction.activate.code, arg] crc (activateAction arg) s)

/-- BYPASS (R179). -/
def execBypass (arg crc : Byte) (s : State) : Host.Outcome State Fault Refusal :=
  .next (requestArrives [cmdDo, MgmtAction.bypass.code, arg] crc (bypassAction arg) s)

/-- SOFT_RESET (R183). -/
def execSoftReset (arg crc : Byte) (s : State) : Host.Outcome State Fault Refusal :=
  .next (requestArrives [cmdDo, MgmtAction.softReset.code, arg] crc (softResetAction arg) s)

/-- ENABLE_GROUP (R17). -/
def execEnableGroup (arg crc : Byte) (s : State) : Host.Outcome State Fault Refusal :=
  .next (requestArrives [cmdDo, MgmtAction.enableGroup.code, arg] crc (withIndex arg enableAction) s)

/-- DISABLE_GROUP (R18). -/
def execDisableGroup (arg crc : Byte) (s : State) : Host.Outcome State Fault Refusal :=
  .next (requestArrives [cmdDo, MgmtAction.disableGroup.code, arg] crc (withIndex arg disableAction) s)

/-- SEAL (R55). -/
def execSealGroup (arg crc : Byte) (s : State) : Host.Outcome State Fault Refusal :=
  .next (requestArrives [cmdDo, MgmtAction.sealGroup.code, arg] crc (withIndex arg sealAction) s)

/-- DISCARD (R41). -/
def execDiscard (arg crc : Byte) (s : State) : Host.Outcome State Fault Refusal :=
  .next (requestArrives [cmdDo, MgmtAction.discard.code, arg] crc (withIndex arg discardAction) s)

/-- CLEAR_FAULT (R19). -/
def execClearFault (arg crc : Byte) (s : State) : Host.Outcome State Fault Refusal :=
  .next (requestArrives [cmdDo, MgmtAction.clearFault.code, arg] crc (withIndex arg clearFaultAction) s)

/-- TIMER_START (R109). -/
def execTimerStart (arg crc : Byte) (s : State) : Host.Outcome State Fault Refusal :=
  .next (requestArrives [cmdDo, MgmtAction.timerStart.code, arg] crc (withIndex arg timerStartAction) s)

/-- TIMER_STOP (R110). -/
def execTimerStop (arg crc : Byte) (s : State) : Host.Outcome State Fault Refusal :=
  .next (requestArrives [cmdDo, MgmtAction.timerStop.code, arg] crc (withIndex arg timerStopAction) s)

/-- TIMER_PRESET (R111). -/
def execTimerPreset (arg crc : Byte) (s : State) : Host.Outcome State Fault Refusal :=
  .next (requestArrives [cmdDo, MgmtAction.timerPreset.code, arg] crc (withIndex arg timerPresetAction) s)

/-- SET_CMT (R153). -/
def execSetCmt (arg crc : Byte) (s : State) : Host.Outcome State Fault Refusal :=
  .next (requestArrives [cmdDo, MgmtAction.setCmt.code, arg] crc (setCmtAction arg) s)

end Sys2Proof.Machine
end

