-- ==== Sys2Proof/Machine/Link.lean ====
section
/-! DEFINITION. The commands of the management link itself and its queries: FRAME_START, FRAME_END,
REQUEST_BYTE_RECEIVED, GET, GET_CAPTURE, UNKNOWN_REQUEST, READ_ONLY_PUT. -/

namespace Sys2Proof.Machine

/-- FRAME_START (R159, R163). -/
def execFrameStart (s : State) : Host.Outcome State Fault Refusal := .next (startFrame s)

/-- FRAME_END (R169). -/
def execFrameEnd (s : State) : Host.Outcome State Fault Refusal := .next (endFrame s)

/-- REQUEST_BYTE_RECEIVED (R164, R165): the byte that completes a request has it taken; a byte of the reply or trailer
shifts out the next byte and is otherwise ignored. -/
def execRequestByteReceived (b : Byte) (s : State) : Host.Outcome State Fault Refusal := .next (clockByte b s)

/-- GET (R167). -/
def execGet (o : Obj) (crc : Byte) (s : State) : Host.Outcome State Fault Refusal :=
  .next (requestArrives [cmdGet, o.number] crc (getObject o) s)

/-- GET_CAPTURE (R148). -/
def execGetCapture (m : Fin 4) (crc : Byte) (s : State) : Host.Outcome State Fault Refusal :=
  .next (requestArrives [cmdGet, (Obj.capture m).number] crc (getObject (.capture m)) s)

/-- UNKNOWN_REQUEST (R167, checks 1 and 2). Bytes that do name a request of the part are not this row's. -/
def execUnknownRequest (cmd num : Byte) (arg : Option Byte) (crc : Byte) (s : State) :
    Host.Outcome State Fault Refusal :=
  .next (if (Instr.unknownRequest cmd num arg crc).wf then
    requestArrives (cmd :: num :: arg.toList) crc unknownTaken s else s)

/-- READ_ONLY_PUT (R167, check 3). A payload of another length, or an object that is not read-only, is not this row's. -/
def execReadOnlyPut (o : Obj) (payload : List Byte) (crc : Byte) (s : State) : Host.Outcome State Fault Refusal :=
  .next (if (Instr.readOnlyPut o payload crc).wf then
    requestArrives (cmdPut :: o.number :: payload) crc (refuse .readOnly) s else s)

end Sys2Proof.Machine
end

