-- ==== Sys2Proof/Machine/Ports.lean ====
section
/-! DEFINITION. The commands of the three ports and of the commit engine: REQUEST_ACCEPT, HEAD_PROCESSING,
MEMORY_GRANT, MEMORY_ANSWER, DRAIN_START, RESPONSE_DELIVERY. -/

namespace Sys2Proof.Machine

/-- REQUEST_ACCEPT (R123). -/
def execRequestAccept (p : PortId) (r : Request) (s : State) : Host.Outcome State Fault Refusal := .next (arrive p r s)

/-- HEAD_PROCESSING (R124): the oldest request in the waiting or head phase, when it is waiting, is processed. A head
that has been processed is not processed again, and a port without a head has none to process. -/
def execHeadProcessing (p : PortId) (s : State) : Host.Outcome State Fault Refusal := .next (processHead p s)

/-- MEMORY_GRANT (R134): with no requester waiting, or no room in the issue list, no grant is made. -/
def execMemoryGrant (s : State) : Host.Outcome State Fault Refusal := .next (grant s)

/-- MEMORY_ANSWER (R132, R133). -/
def execMemoryAnswer (a : AnswerStatus) (data : List Word) (s : State) : Host.Outcome State Fault Refusal :=
  .next (takeAnswer a data s)

/-- DRAIN_START (R63): the engine's start test. -/
def execDrainStart (s : State) : Host.Outcome State Fault Refusal := .next (testStart s)

/-- RESPONSE_DELIVERY (R126): a port whose oldest request is not answered has nothing to deliver. -/
def execResponseDelivery (p : PortId) (s : State) : Host.Outcome State Fault Refusal := .next (deliver p s)

end Sys2Proof.Machine
end

