-- ==== Sys2Proof/Machine/Puts.lean ====
section
/-! DEFINITION. The PUT commands of the management objects (Section 10.5). -/

namespace Sys2Proof.Machine

/-- PUT_DEVICE (R173). -/
def execPutDevice (v : DeviceRaw) (crc : Byte) (s : State) : Host.Outcome State Fault Refusal :=
  .next (requestArrives (cmdPut :: Obj.device.number :: v.toBytes) crc (putDevice v) s)

/-- PUT_EVENTS (R160). -/
def execPutEvents (v : BitVec 32) (crc : Byte) (s : State) : Host.Outcome State Fault Refusal :=
  .next (requestArrives (cmdPut :: Obj.events.number :: bytes32 v) crc (putEvents v) s)

/-- PUT_EVENT_EN (R161). -/
def execPutEventEn (v : BitVec 32) (crc : Byte) (s : State) : Host.Outcome State Fault Refusal :=
  .next (requestArrives (cmdPut :: Obj.eventEn.number :: bytes32 v) crc (putEventEn v) s)

/-- PUT_WINDOW (R3, R4). -/
def execPutWindow (n : Fin 8) (v : WindowRaw) (crc : Byte) (s : State) : Host.Outcome State Fault Refusal :=
  .next (requestArrives (cmdPut :: (Obj.window n).number :: v.toBytes) crc (putWindow n v) s)

/-- PUT_GROUP_CFG (R14). -/
def execPutGroupCfg (g : Fin 4) (v : GroupCfgRaw) (crc : Byte) (s : State) : Host.Outcome State Fault Refusal :=
  .next (requestArrives (cmdPut :: (Obj.groupCfg g).number :: v.toBytes) crc (putGroupCfg g v) s)

/-- PUT_TIMER_CFG (R112 to R114). -/
def execPutTimerCfg (t : Fin 4) (v : TimerCfgRaw) (crc : Byte) (s : State) : Host.Outcome State Fault Refusal :=
  .next (requestArrives (cmdPut :: (Obj.timerCfg t).number :: v.toBytes) crc (putTimerCfg t v) s)

/-- PUT_MON_CFG (R142). -/
def execPutMonCfg (m : Fin 4) (v : MonCfgRaw) (crc : Byte) (s : State) : Host.Outcome State Fault Refusal :=
  .next (requestArrives (cmdPut :: (Obj.monCfg m).number :: v.toBytes) crc (putMonCfg m v) s)

/-- PUT_CMT_CFG (R157). -/
def execPutCmtCfg (g : Fin 4) (v : CmtCfgRaw) (crc : Byte) (s : State) : Host.Outcome State Fault Refusal :=
  .next (requestArrives (cmdPut :: (Obj.cmtCfg g).number :: v.toBytes) crc (putCmtCfg g v) s)

end Sys2Proof.Machine
end

