-- ==== Sys2Proof/Machine/Resets.lean ====
section
/-! DEFINITION. The reset commands: POWER_ON, RSTN_ASSERT, RSTN_RELEASE (Section 11.3). -/

namespace Sys2Proof.Machine

/-- POWER_ON (R182): every block at its power-on values; the part is held until RSTn is released (R139). -/
def execPowerOn (s : State) : Host.Outcome State Fault Refusal := .next (hardReset s)

/-- RSTN_ASSERT (R139): every slot is freed without a response, the issue list is abandoned, and every block takes its
reset values. -/
def execRstnAssert (s : State) : Host.Outcome State Fault Refusal := .next (hardReset s)

/-- RSTN_RELEASE (R182). RSTn that is not asserted is not released. -/
def execRstnRelease (s : State) : Host.Outcome State Fault Refusal := .next (releaseReset s)

end Sys2Proof.Machine
end

