-- ==== Sys2Proof/Machine/Time.lean ====
section
/-! DEFINITION. The commands of time and of the input lines: HOLD_TIMER_EXPIRY, SERVICE_TICK, TIMER_STEP, PULSE_END,
SYNC_TRANSITION, CHOLD_CHANGE. HOLD_TIMER_EXPIRY and PULSE_END are the last tick of their count, as its own block takes
it, and TIMER_STEP is the count event itself (log entry 3). -/

namespace Sys2Proof.Machine

/-- HOLD_TIMER_EXPIRY (R32): the hold timer at its last tick expires; there is no expiry before that tick (R30), and none
with no write held or no hold timer running (R33). -/
def execHoldTimerExpiry (s : State) : Host.Outcome State Fault Refusal := .next (expireHold s)

/-- SERVICE_TICK (R100). -/
def execServiceTick (order : List TickSink) (s : State) : Host.Outcome State Fault Refusal := .next (serviceTick order s)

/-- TIMER_STEP (R103): a count event of timer `t`, which leaves the *prescale count* at 0 (R102); a STOPPED timer
ignores it. -/
def execTimerStep (t : Fin 4) (s : State) : Host.Outcome State Fault Refusal :=
  .next (if (s.timer t).running then countEvent t (s.modTimer t (fun x => { x with prescale := 0 })) else s)

/-- PULSE_END (R154): the tick that lowers a countdown from 1 to 0 ends the pulse; no other does. -/
def execPulseEnd (g : Fin 4) (s : State) : Host.Outcome State Fault Refusal := .next (s.modLine g Line.endPulse)

/-- SYNC_TRANSITION (R119, R120). -/
def execSyncTransition (t : Fin 4) (level : Bool) (s : State) : Host.Outcome State Fault Refusal :=
  .next (syncSettles t level s)

/-- CHOLD_CHANGE (R64). -/
def execCholdChange (asserted : Bool) (s : State) : Host.Outcome State Fault Refusal := .next (choldSet asserted s)

end Sys2Proof.Machine
end

