-- ==== Sys2Proof/Machine/Dispatch.lean ====
section
/-! DEFINITION. What each command does to everything but the queue of waiting commands. -/

namespace Sys2Proof.Machine

def exec (i : Instr) (s : State) : Host.Outcome State Fault Refusal :=
  match i with
  | .powerOn => Sys2Proof.Machine.execPowerOn s
  | .rstnAssert => Sys2Proof.Machine.execRstnAssert s
  | .rstnRelease => Sys2Proof.Machine.execRstnRelease s
  | .requestAccept p r => Sys2Proof.Machine.execRequestAccept p r s
  | .headProcessing p => Sys2Proof.Machine.execHeadProcessing p s
  | .memoryGrant => Sys2Proof.Machine.execMemoryGrant s
  | .memoryAnswer a data => Sys2Proof.Machine.execMemoryAnswer a data s
  | .drainStart => Sys2Proof.Machine.execDrainStart s
  | .responseDelivery p => Sys2Proof.Machine.execResponseDelivery p s
  | .holdTimerExpiry => Sys2Proof.Machine.execHoldTimerExpiry s
  | .serviceTick order => Sys2Proof.Machine.execServiceTick order s
  | .timerStep t => Sys2Proof.Machine.execTimerStep t s
  | .pulseEnd g => Sys2Proof.Machine.execPulseEnd g s
  | .syncTransition t level => Sys2Proof.Machine.execSyncTransition t level s
  | .choldChange asserted => Sys2Proof.Machine.execCholdChange asserted s
  | .frameStart => Sys2Proof.Machine.execFrameStart s
  | .frameEnd => Sys2Proof.Machine.execFrameEnd s
  | .get o crc => Sys2Proof.Machine.execGet o crc s
  | .getCapture m crc => Sys2Proof.Machine.execGetCapture m crc s
  | .putDevice v crc => Sys2Proof.Machine.execPutDevice v crc s
  | .putEvents v crc => Sys2Proof.Machine.execPutEvents v crc s
  | .putEventEn v crc => Sys2Proof.Machine.execPutEventEn v crc s
  | .putWindow n v crc => Sys2Proof.Machine.execPutWindow n v crc s
  | .putGroupCfg g v crc => Sys2Proof.Machine.execPutGroupCfg g v crc s
  | .putTimerCfg t v crc => Sys2Proof.Machine.execPutTimerCfg t v crc s
  | .putMonCfg m v crc => Sys2Proof.Machine.execPutMonCfg m v crc s
  | .putCmtCfg g v crc => Sys2Proof.Machine.execPutCmtCfg g v crc s
  | .activate arg crc => Sys2Proof.Machine.execActivate arg crc s
  | .bypass arg crc => Sys2Proof.Machine.execBypass arg crc s
  | .softReset arg crc => Sys2Proof.Machine.execSoftReset arg crc s
  | .enableGroup arg crc => Sys2Proof.Machine.execEnableGroup arg crc s
  | .disableGroup arg crc => Sys2Proof.Machine.execDisableGroup arg crc s
  | .sealGroup arg crc => Sys2Proof.Machine.execSealGroup arg crc s
  | .discard arg crc => Sys2Proof.Machine.execDiscard arg crc s
  | .clearFault arg crc => Sys2Proof.Machine.execClearFault arg crc s
  | .timerStart arg crc => Sys2Proof.Machine.execTimerStart arg crc s
  | .timerStop arg crc => Sys2Proof.Machine.execTimerStop arg crc s
  | .timerPreset arg crc => Sys2Proof.Machine.execTimerPreset arg crc s
  | .setCmt arg crc => Sys2Proof.Machine.execSetCmt arg crc s
  | .unknownRequest cmd num arg crc => Sys2Proof.Machine.execUnknownRequest cmd num arg crc s
  | .readOnlyPut o payload crc => Sys2Proof.Machine.execReadOnlyPut o payload crc s
  | .requestByteReceived b => Sys2Proof.Machine.execRequestByteReceived b s

end Sys2Proof.Machine
end

