-- ==== Sys2Proof/Safety.lean ====
section
/-! DEFINITION. What a sound state of the bridge is, law by law, in the terms the statements use. Each law is one the
spec states of every moment; the statements say that every step keeps it. -/

namespace Sys2Proof.Machine

/-- The memory issue list holds at most 8 records (R130), and each master port at most four requests (R123). -/
abbrev WithinLimits (s : State) : Prop :=
  s.issue.length ≤ Config.issueSize ∧ s.hp.slots.length ≤ Config.portSlots ∧ s.cp.slots.length ≤ Config.portSlots

/-- The *commit write count* is the number of commit-write records in the issue list, orphans included, and at most 4
(R62, R66). -/
abbrev WriteCountAgrees (s : State) : Prop :=
  s.engine.writeCount = (s.issue.filter (fun r => r.requester == .ce)).length ∧
  s.engine.writeCount ≤ Config.commitWrites

/-- For each group, the open epoch number equals the last committed epoch number plus 1, plus 1 more if the group has a
sealed epoch, modulo 65536 (R46). -/
abbrev EpochsAgree (s : State) : Prop :=
  ∀ g : Fin 4, (s.group g).openEpoch = (s.group g).lastCommitted + 1 + (if (s.group g).hasSealed then 1 else 0)

/-- The commit request queue holds each group at most once, and a group is in the queue or is being drained, and not
both, exactly when it has a sealed epoch (R61). -/
abbrev CommitQueueAgrees (s : State) : Prop :=
  s.commitReq.Nodup ∧ ∀ g : Fin 4,
    ((s.group g).hasSealed = true ↔ (g ∈ s.commitReq ∨ s.engine.state = .draining g)) ∧
    (s.engine.state = .draining g → g ∉ s.commitReq)

/-- The number of entries of group `g` with role `role`. -/
def entryCount (q : List Entry) (g : Fin 4) (role : Role) : Nat :=
  (q.filter (fun e => e.group == g && e.role == role)).length

/-- The counts of each group are its numbers of OPEN and SEALED entries, and SEALED entries exist only while the group
has a sealed epoch (R15, R22, R38). -/
abbrev CountsAgree (s : State) : Prop :=
  ∀ g : Fin 4, (s.group g).openCount = entryCount s.queue g .opened ∧
    (s.group g).sealedCount = entryCount s.queue g .sealed ∧
    ((s.group g).hasSealed = false → (s.group g).sealedCount = 0)

/-- Whether two entries share group, role and word address. -/
def sameKey (a b : Entry) : Bool := a.group == b.group && a.role == b.role && a.addr == b.addr

/-- No two entries of the same group with the same role have the same word address (R23). -/
abbrev EntriesDistinct (s : State) : Prop := s.queue.Pairwise (fun a b => sameKey a b = false)

/-- Every entry has a non-empty lane mask, and holds 0x00 in the lanes outside it (R20). -/
abbrev EntriesSound (s : State) : Prop :=
  ∀ e ∈ s.queue, e.mask ≠ LaneMask.none ∧ e.data = mergeLanes e.mask e.data Word.zero

/-- Behind the head of a port every request waits: at most one request is being processed, and it is the oldest one not
yet issued or answered (R124, R125). -/
def headsInOrder : List Slot → Bool
  | [] => true
  | sl :: rest => if sl.active then rest.all (fun x => x.phase == .waiting) else headsInOrder rest

/-- A write held for admission has a group that admits; a write held for DISABLED has a STOPPING group (R30, R34, R35). -/
def heldFits (s : State) : Bool :=
  match s.held with
  | none => true
  | some h =>
    match h.cause, (s.group h.cls.group).state with
    | .admission, .running | .admission, .faulted | .disable, .stopping => true
    | _, _ => false

/-- What a group's state says of its epochs: a DISABLED group holds no entries and has no sealed epoch (R16), and a
STOPPING group has a sealed epoch on its way out (R57, R58). -/
abbrev GroupShape (x : GroupRec) : Prop :=
  (x.state = .disabled → x.openCount = 0 ∧ x.sealedCount = 0 ∧ x.hasSealed = false) ∧
  (x.state = .stopping → x.hasSealed = true)

/-- What the device mode says of the groups: in BYPASS every group is DISABLED (R177); in LEAVING each is STOPPING or
DISABLED, and not all are DISABLED (R180). -/
abbrev ModeShape (s : State) : Prop :=
  (s.mode = .bypass → ∀ g : Fin 4, (s.group g).state = .disabled) ∧
  (s.mode = .leaving → (∀ g : Fin 4, (s.group g).state = .disabled ∨ (s.group g).state = .stopping) ∧
    allDisabled s.groups = false)

/-- The law of the staging path: counts, group states, device mode and held write fit together (R16, R22, R177). -/
abbrev StagingSound (s : State) : Prop :=
  CountsAgree s ∧ headsInOrder s.hp.slots = true ∧ heldFits s = true ∧
  (∀ g : Fin 4, GroupShape (s.group g)) ∧ ModeShape s

/-- A group stays within its *quota*, and the *quota* within its range (R13, R22). -/
abbrev WithinQuota (s : State) : Prop :=
  (∀ g : Fin 4, 1 ≤ (s.group g).cfg.quota ∧ (s.group g).cfg.quota ≤ 512 ∧
    (s.group g).openCount + (s.group g).sealedCount ≤ (s.group g).cfg.quota) ∧
  s.queue.length ≤ Config.queueSize

/-- The items of a timer relate as R101 gives: the counter lies between 0 and P, the direction fits the mode, and the
*prescale count* lies below 2^k, or is 0 for a sync source. -/
abbrev TimerSound (x : Timer) : Prop :=
  x.period ≠ 0 ∧ x.periodNext ≠ some 0 ∧ x.counter.toNat ≤ x.period.toNat ∧
  (x.mode = .up → x.direction = .up) ∧ (x.mode = .down → x.direction = .down) ∧
  (x.mode = .upDown → x.direction = .up → x.counter ≠ x.period) ∧
  (x.mode = .upDown → x.direction = .down → x.counter ≠ 0) ∧
  x.prescale < (match x.source with
    | .tick k => 2 ^ k.val
    | .sync _ => 1)

/-- Every timer is sound (R101). -/
abbrev TimersSound (s : State) : Prop := ∀ t : Fin 4, TimerSound (s.timer t)

/-- SYNCt is never both the count source of Tt and a seal source of group t, and a group never has PEAK as a seal
source while its timer is not in UPDOWN mode (R112). -/
abbrev PairingSound (s : State) : Prop :=
  ∀ t : Fin 4, pairingConflict (s.group t).cfg.sources (s.timer t).source (s.timer t).mode = false

/-- A pulse countdown runs only on an active line in PULSE mode, and never above 255 ticks (R151, R154). -/
abbrev LinesSound (s : State) : Prop :=
  ∀ g : Fin 4, (s.lines.get g).countdown ≤ 255 ∧ 1 ≤ (s.lines.get g).width ∧ (s.lines.get g).width ≤ 255 ∧
    ((s.lines.get g).countdown ≠ 0 → (s.lines.get g).mode = .pulse ∧ (s.lines.get g).logic = true)

/-- A window entry keeps the ranges of R3, step 1. -/
abbrev WindowInRange (w : Window) : Prop :=
  w.base.toNat % 256 = 0 ∧ 1 ≤ w.size ∧ w.size ≤ 65536 ∧ w.base.toNat + 256 * w.size ≤ 2 ^ 32

/-- No two enabled windows share a byte address (R3). -/
abbrev WindowsApart (s : State) : Prop :=
  (∀ n : Fin 8, WindowInRange (s.windows.get n)) ∧
  ∀ i j : Fin 8, i ≠ j → (s.windows.get i).enabled = true → (s.windows.get j).enabled = true →
    rangesMeet (s.windows.get i).base (s.windows.get i).size (s.windows.get j).base (s.windows.get j).size = false

/-- The engine has no start left to make: with a group waiting it is DRAINING, or CHOLD holds it back (R63). -/
abbrev NoStartLeft (s : State) : Prop :=
  s.engine.state = .idle → s.chold = false → s.commitReq = []

/-- The tick generator counts fewer edges than its period has, and its divisors are 1 to 256 (R100). -/
abbrev TickSound (s : State) : Prop :=
  1 ≤ s.tick.divisor ∧ s.tick.divisor ≤ 256 ∧ 1 ≤ s.tick.inForce ∧ s.tick.inForce ≤ 256 ∧ s.tick.count < s.tick.inForce

/-- While RSTn is asserted the part holds no request, no entry and no record, no group is enabled, no timer runs, and no
frame is taken (R139, R170, R182). -/
abbrev HeldInReset (s : State) : Prop :=
  s.inReset = true → s.hp.slots = [] ∧ s.cp.slots = [] ∧ s.issue = [] ∧ s.queue = [] ∧ s.commitReq = [] ∧
    s.mode = .bypass ∧ s.engine.state = .idle ∧ (∀ g : Fin 4, (s.group g).state = .disabled) ∧
    (∀ t : Fin 4, (s.timer t).running = false) ∧ (s.mgmt.phase = .idle ∨ s.mgmt.phase = .ignored)

/-! ## Laws across blocks -/

/-- An address lies in an enabled STAGED window of group `g` (R2, R8). -/
def inWindowOf (s : State) (g : Fin 4) (a : Addr) : Bool :=
  eight.any (fun n => (s.windows.get n).covers a && (s.windows.get n).kind == .staged && (s.windows.get n).group == g)

/-- No word of a request lies in a STAGED window of a group that is not DISABLED. -/
def clearOfStaging (s : State) (r : Request) : Bool :=
  (requestWords r).all (fun a => four.all (fun g => !inWindowOf s g a || (s.group g).state == .disabled))

/-- Whether a slot's request waits at the port head to be passed through. -/
def SlotPhase.passesThrough : SlotPhase → Bool
  | .head _ .passThrough => true
  | .head _ .forwarded | .head _ (.held _ _) | .waiting | .issued | .answered _ => false

/-- Whether a slot's request is a forwarded read that waits for the memory. -/
def SlotPhase.forwards : SlotPhase → Bool
  | .head _ .forwarded => true
  | .head _ .passThrough | .head _ (.held _ _) | .waiting | .issued | .answered _ => false

/-- A write that waits at a port head to be passed through touches no STAGED window of a group that is not DISABLED
(R11, R12), and what is forwarded is a read (R82). -/
abbrev HeadClear (s : State) (p : PortId) : Prop :=
  ∀ sl ∈ (s.port p).head?.toList,
    (sl.phase.passesThrough = true → sl.req.kind = .write → clearOfStaging s sl.req = true) ∧
    (sl.phase.forwards = true → sl.req.kind = .read)

/-- Every word of a held write lies in a STAGED window of the group it is held for (R5, R30, R35). -/
abbrev HeldPlaced (s : State) : Prop :=
  ∀ h ∈ s.held.toList, h.req.kind = .write ∧ (requestWords h.req).all (inWindowOf s h.cls.group) = true

/-- The window table and the staging path agree: every staged word lies in a window of its group (R20, R23), a held write
lies in its group's windows, and no write that waits to be passed through touches the windows of a group that is not
DISABLED (R11, R12). The heads of both ports stand in order (R124, R125). -/
abbrev TableSound (s : State) : Prop :=
  StagingSound s ∧ headsInOrder s.cp.slots = true ∧ WindowsApart s ∧
  (∀ e ∈ s.queue, inWindowOf s e.group e.addr = true) ∧ HeldPlaced s ∧ HeadClear s .hp ∧ HeadClear s .cp

/-- The slot numbers and requests of a port's issued slots, in the order of acceptance. -/
def issuedSlots (slots : List Slot) : List (Option (Fin 4) × Request) :=
  (slots.filter (fun sl => sl.phase == .issued)).map (fun sl => (some sl.id, sl.req))

/-- The slots and requests of a requester's records that are no orphans, in issue order. -/
def liveRecords (l : List IssueRec) (x : Requester) : List (Option (Fin 4) × Request) :=
  (l.filter (fun r => r.requester == x && !r.orphan)).map (fun r => (r.slot, r.req))

/-- The slots of a port are told apart, its requests are processed in order, and the memory requests it waits for are
its live records of the issue list, in the same order (R123, R124, R130). -/
abbrev PortAgrees (s : State) (p : PortId) : Prop :=
  headsInOrder (s.port p).slots = true ∧ ((s.port p).slots.map Slot.id).Nodup ∧
  issuedSlots (s.port p).slots = liveRecords s.issue (PortId.requester p)

/-- Both ports agree with the issue list, within the limits of R123 and R130. -/
abbrev PortsSound (s : State) : Prop := WithinLimits s ∧ PortAgrees s .hp ∧ PortAgrees s .cp

/-- The entry references of the commit writes of the current drain that are outstanding, in issue order. -/
def liveCommits (l : List IssueRec) : List (Option EntryRef) :=
  (l.filter (fun r => r.requester == .ce && !r.orphan)).map IssueRec.entry

/-- What the engine knows of an entry agrees with the entry (R39, R62, R66): an entry that is not issued has no write
outstanding; an issued entry is SEALED, of the group being drained, and has its first write outstanding; a reissued one
waits in the *retry list* or has its second write outstanding. -/
def entryFollowed (s : State) (e : Entry) : Bool :=
  match e.issue with
  | .notIssued => e.role == .opened || !(liveCommits s.issue).contains (some ⟨e.group, e.addr⟩)
  | .issued => e.role == .sealed && s.engine.state == .draining e.group &&
      (liveCommits s.issue).contains (some ⟨e.group, e.addr⟩) && !s.engine.retry.contains e.addr
  | .reissued => e.role == .sealed && s.engine.state == .draining e.group &&
      ((liveCommits s.issue).contains (some ⟨e.group, e.addr⟩) != s.engine.retry.contains e.addr)

/-- The engine follows every entry. -/
abbrev EntriesFollowed (s : State) : Prop := ∀ e ∈ s.queue, entryFollowed s e = true

/-- Every outstanding commit write is of a SEALED entry of the group being drained. -/
abbrev CommitsFollowed (s : State) : Prop :=
  ∀ x ∈ liveCommits s.issue, ∃ e ∈ s.queue, x = some ⟨e.group, e.addr⟩ ∧ e.role = .sealed ∧
    s.engine.state = .draining e.group

/-- The reissued entries of group `g` whose words are in the *retry list*, in queue order. -/
def retryInOrder (q : List Entry) (g : Fin 4) (retry : List Addr) : List Addr :=
  (q.filter (fun e => e.group == g && e.role == .sealed && e.issue == .reissued && retry.contains e.addr)).map Entry.addr

/-- The *retry list* holds reissued entries of the group being drained, in queue order, and nothing while the engine is
IDLE (R62). -/
abbrev RetryFollowed (s : State) : Prop :=
  (s.engine.state = .idle → s.engine.retry = []) ∧
  ∀ g : Fin 4, s.engine.state = .draining g → s.engine.retry = retryInOrder s.queue g s.engine.retry

/-- The engine, the staging queue and the issue list agree (R39, R61, R62, R66). -/
abbrev EngineSound (s : State) : Prop :=
  CountsAgree s ∧ EntriesDistinct s ∧ CommitQueueAgrees s ∧ (liveCommits s.issue).Nodup ∧
  EntriesFollowed s ∧ CommitsFollowed s ∧ RetryFollowed s

/-- Behind an outstanding commit write of group `g` in the issue list stands no consumer read of a word of `g`'s STAGED
windows: such a read is ahead of every commit write of the drain, or is granted after the drain (R94, R97). -/
abbrev FenceOrder (s : State) : Prop :=
  s.issue.Pairwise (fun a b => a.requester = .ce → a.orphan = false → b.requester = .cp → b.orphan = false →
    b.req.kind = .read → ∀ x ∈ a.entry.toList, (requestWords b.req).any (inWindowOf s x.group) = false)

/-- The law of the fence, with the laws it rests on. -/
abbrev FenceSound (s : State) : Prop := StagingSound s ∧ WindowsApart s ∧ EngineSound s ∧ FenceOrder s

/-! ## Terms of the statements about management requests and port heads -/

/-- A request with these bytes before its CRC byte `crc` is the one this frame is receiving, and its CRC byte is correct
(R164, R166): what is left of it is about to be clocked in (log entry 4). -/
abbrev RequestReady (s : State) (body : List Byte) (crc : Byte) : Prop :=
  s.mgmt.phase = .request ∧ s.mgmt.received.isPrefixOf body = true ∧ crc8 body = crc

/-- The part after a request: the reply phase begins, with these bytes to shift out (R164, R168). -/
def replied (reply : List Byte) (t : State) : State := { t with mgmt := ⟨.reply, [], none, reply, some 0⟩ }

/-- Every word of a request lies outside the windows (R2, R8). -/
def outsideAll (s : State) (r : Request) : Bool :=
  (requestWords r).all (fun a => eight.all (fun n => !(s.windows.get n).covers a))

/-- Every word of a request belongs to window `n` (R2, R8). -/
def insideOne (s : State) (n : Fin 8) (r : Request) : Bool :=
  (requestWords r).all (fun a => (s.windows.get n).covers a)

/-- A request passes the checks of R7: a word address, and a *burst count* of 1 to 8. -/
abbrev FormSound (r : Request) : Prop := r.addr.toNat % 4 = 0 ∧ 1 ≤ r.count.toNat ∧ r.count.toNat ≤ 8

/-- The state once a port head's request has been seen by the monitors (R124, R144). -/
def seenAtHead (p : PortId) (r : Request) (s : State) : State :=
  observe (PortId.requester p) r.kind (monitoredWords r) s

/-- The class a request gets inside window `n`, with what R8 has it carry. -/
def stagedClass (s : State) (n : Fin 8) : ReqClass :=
  .staged n (s.windows.get n).group (s.windows.get n).forward (s.windows.get n).policy

/-! ## Terms of the statements about seals, completions and starts -/

/-- A commit line at a seal of its group: BUSY makes it active (R47, R156). -/
def lineSealed (x : Line) : Line := if x.mode = .busy then { x with logic := true } else x

/-- A commit line at a completion of its group (R74 step 3, R153 to R156). -/
def lineCompleted (x : Line) : Line :=
  match x.mode with
  | .level => x
  | .pulse => { x with logic := true, countdown := x.width }
  | .toggle => { x with logic := !x.logic }
  | .busy => { x with logic := false }

/-- A commit line at a service tick: a countdown above 0 falls by one, and at 0 the line is inactive (R154). -/
def lineTicked (x : Line) : Line :=
  { x with countdown := x.countdown - 1, logic := if x.countdown = 1 then false else x.logic }

/-- Group `g` is sealed (R47, R38, R46): its OPEN entries become SEALED in place, not issued; the counts and the epoch
number move; the group joins the commit request queue; SEALED_Gg is caused; the line acts. -/
def sealedAt (g : Fin 4) (s : State) : State :=
  { s with
    queue := s.queue.map (fun e =>
      if e.group = g ∧ e.role = .opened then { e with role := .sealed, issue := .notIssued } else e)
    groups := s.groups.set g { s.group g with
      hasSealed := true
      sealedCount := (s.group g).openCount
      openCount := 0
      openEpoch := (s.group g).openEpoch + 1 }
    commitReq := s.commitReq ++ [g]
    events := s.events.cause (.sealed g)
    lines := s.lines.set g (lineSealed (s.lines.get g)) }

/-- The write held for group `g`, if one is held for it, goes on as a pass-through write with its class (R36). -/
def holdReleased (g : Fin 4) (s : State) : State :=
  match s.held with
  | none => s
  | some h => if h.cls.group = g then s.setHead .hp (.head h.cls .passThrough) else s

/-- The write held for group `g`, if one is held for it, now waits for DISABLED and keeps its timer (R34). -/
def holdConverted (g : Fin 4) (s : State) : State :=
  match s.held with
  | none => s
  | some h => if h.cls.group = g then s.setHead .hp (.head h.cls (.held .disable h.timer)) else s

/-- Group `g` reaches DISABLED: a write held for it is released (R18, R36); in LEAVING, when every other group is DISABLED
too, the mode becomes BYPASS and BYPASS_REACHED is caused (R180). -/
def disabledAt (g : Fin 4) (s : State) : State :=
  let t := holdReleased g { s with groups := s.groups.set g { s.group g with state := .disabled } }
  if s.mode = .leaving ∧ ∀ k : Fin 4, k ≠ g → (s.group k).state = .disabled then
    { t with mode := .bypass, events := t.events.cause .bypassReached }
  else t

/-- Steps 1 to 4 of the completion of group `g` (R74): the sealed epoch's number becomes the last committed one, no sealed
epoch remains, COMMITTED_Gg is caused, the line acts, the engine is IDLE. -/
def drained (g : Fin 4) (s : State) : State :=
  { s with
    groups := s.groups.set g { s.group g with lastCommitted := (s.group g).openEpoch - 1, hasSealed := false }
    events := s.events.cause (.committed g)
    lines := s.lines.set g (lineCompleted (s.lines.get g))
    engine := { s.engine with state := .idle } }

/-- Step 5 of the completion (R74, R58): a STOPPING group makes its final seal while its open epoch holds entries, and
reaches DISABLED when it holds none; any other group is passed over. -/
def woundDown (g : Fin 4) (s : State) : State :=
  if (s.group g).state = .stopping then
    if 0 < (s.group g).openCount then sealedAt g s else disabledAt g s
  else s

/-- Steps 1 to 5 of the completion of group `g` (R74). The start test of step 6 is `StartTest`. -/
def completedAt (g : Fin 4) (s : State) : State := woundDown g (drained g s)

/-- The head group `g` is taken from the commit request queue and drained, with an empty *retry list* (R63). -/
def startedAt (g : Fin 4) (rest : List (Fin 4)) (s : State) : State :=
  { s with commitReq := rest, engine := { s.engine with state := .draining g, retry := [] } }

/-- What the start test of R63 makes of a state. Nothing, while a drain is in progress, no group waits or CHOLD is asserted
(R64). Else the head group's drain starts; and an epoch with nothing to write completes at its start (R48, R73), which
brings the start test of R74, step 6 (R75). -/
inductive StartTest : State → State → Prop where
  | rests {s : State} : s.engine.state ≠ .idle ∨ s.commitReq = [] ∨ s.chold = true → StartTest s s
  | starts {s : State} {g : Fin 4} {rest : List (Fin 4)} : s.engine.state = .idle → s.commitReq = g :: rest →
      s.chold = false → hasSealedEntry s.queue g = true ∨ writeOutstanding s.issue g = true →
      StartTest s (startedAt g rest s)
  | completes {s t : State} {g : Fin 4} {rest : List (Fin 4)} : s.engine.state = .idle → s.commitReq = g :: rest →
      s.chold = false → hasSealedEntry s.queue g = false → writeOutstanding s.issue g = false →
      StartTest (completedAt g (startedAt g rest s)) t → StartTest s t

/-- What a boundary event of group `g` makes of a state (R50 to R52): nothing, for a group that is not RUNNING; an
overrun, counted and flagged, while a sealed epoch exists; nothing, for an empty open epoch under *seal empty* = no; else
the seal and the start test it brings (R47, R63). -/
inductive BoundaryGives (g : Fin 4) (s : State) : State → Prop where
  | ignored : (s.group g).state ≠ .running → BoundaryGives g s s
  | overrun : (s.group g).state = .running → (s.group g).hasSealed = true →
      BoundaryGives g s { s with
        groups := s.groups.set g { s.group g with overruns := min ((s.group g).overruns + 1) 255 }
        events := s.events.cause (.overrun g) }
  | passes : (s.group g).state = .running → (s.group g).hasSealed = false → (s.group g).openCount = 0 →
      (s.group g).cfg.sealEmpty = false → BoundaryGives g s s
  | seals {t : State} : (s.group g).state = .running → (s.group g).hasSealed = false →
      0 < (s.group g).openCount ∨ (s.group g).cfg.sealEmpty = true → StartTest (sealedAt g s) t → BoundaryGives g s t

/-! ## Terms of the statement about the re-examination of waiting heads -/

/-- A write of group `g` fits the quota and the shared queue (R25). -/
abbrev Fits (g : Fin 4) (r : Request) (s : State) : Prop :=
  need s.queue g r + ((s.group g).openCount + (s.group g).sealedCount) ≤ (s.group g).cfg.quota ∧
  need s.queue g r + s.queue.length ≤ 512

/-- Request `r` waits at the head of port `p` to be passed through. -/
abbrev PassesAt (s : State) (p : PortId) (r : Request) : Prop :=
  ∃ (i : Fin 4) (cls : ReqClass), (s.port p).head? = some ⟨i, r, .head cls .passThrough⟩

/-- What the re-examination of the Host Port's head makes of a state when group `g` is enabled (R12). -/
inductive HostReexamined (g : Fin 4) (s : State) : State → Prop where
  | nothing : (∀ sl ∈ s.hp.head?.toList, sl.phase.passesThrough = false) → HostReexamined g s s
  | straddles {r : Request} : PassesAt s .hp r → outsideAll s r = false → (∀ n : Fin 8, insideOne s n r = false) →
      HostReexamined g s (s.setHead .hp (.answered ⟨.span, []⟩))
  | outside {r : Request} : PassesAt s .hp r → outsideAll s r = true → HostReexamined g s s
  | elsewhere {r : Request} {n : Fin 8} : PassesAt s .hp r → insideOne s n r = true →
      (s.windows.get n).kind = .locked ∨ (s.windows.get n).group ≠ g → HostReexamined g s s
  | writeFits {r : Request} {n : Fin 8} : PassesAt s .hp r → insideOne s n r = true →
      (s.windows.get n).kind = .staged → (s.windows.get n).group = g → r.kind = .write → Fits g r s →
      HostReexamined g s ((admitWrite g r s).setHead .hp (.answered ⟨.ok, []⟩))
  | writeRefused {r : Request} {n : Fin 8} : PassesAt s .hp r → insideOne s n r = true →
      (s.windows.get n).kind = .staged → (s.windows.get n).group = g → r.kind = .write → ¬ Fits g r s →
      (s.windows.get n).policy = .refuse → HostReexamined g s (s.setHead .hp (.answered ⟨.full g, []⟩))
  | writeHeld {r : Request} {n : Fin 8} : PassesAt s .hp r → insideOne s n r = true →
      (s.windows.get n).kind = .staged → (s.windows.get n).group = g → r.kind = .write → ¬ Fits g r s →
      (s.windows.get n).policy = .stall →
      HostReexamined g s (s.setHead .hp (.head (stagedClass s n) (.held .admission
        (if (s.group g).cfg.stallTimeout = 0 then none else some (s.group g).cfg.stallTimeout))))
  | readCovered {r : Request} {n : Fin 8} : PassesAt s .hp r → insideOne s n r = true →
      (s.windows.get n).kind = .staged → (s.windows.get n).group = g → r.kind = .read →
      (s.windows.get n).forward = true → (∀ a ∈ requestWords r, (overlayOf s.queue g a).full = true) →
      HostReexamined g s (s.setHead .hp
        (.answered ⟨.ok, (requestWords r).map (fun a => (overlayOf s.queue g a).lay Word.zero)⟩))
  | readForwarded {r : Request} {n : Fin 8} : PassesAt s .hp r → insideOne s n r = true →
      (s.windows.get n).kind = .staged → (s.windows.get n).group = g → r.kind = .read →
      (s.windows.get n).forward = true → (∃ a ∈ requestWords r, (overlayOf s.queue g a).full = false) →
      HostReexamined g s (s.setHead .hp (.head (stagedClass s n) .forwarded))
  | readPasses {r : Request} {n : Fin 8} : PassesAt s .hp r → insideOne s n r = true →
      (s.windows.get n).kind = .staged → (s.windows.get n).group = g → r.kind = .read →
      (s.windows.get n).forward = false → HostReexamined g s s

/-- What the re-examination of the Consumer Port's head makes of a state when group `g` is enabled (R12). -/
inductive ConsumerReexamined (g : Fin 4) (s : State) : State → Prop where
  | nothing : (∀ sl ∈ s.cp.head?.toList, sl.phase.passesThrough = true → sl.req.kind = .read) → ConsumerReexamined g s s
  | straddles {r : Request} : PassesAt s .cp r → r.kind = .write → outsideAll s r = false →
      (∀ n : Fin 8, insideOne s n r = false) → ConsumerReexamined g s (s.setHead .cp (.answered ⟨.span, []⟩))
  | outside {r : Request} : PassesAt s .cp r → outsideAll s r = true → ConsumerReexamined g s s
  | elsewhere {r : Request} {n : Fin 8} : PassesAt s .cp r → insideOne s n r = true →
      (s.windows.get n).kind = .locked ∨ (s.windows.get n).group ≠ g → ConsumerReexamined g s s
  | barred {r : Request} {n : Fin 8} : PassesAt s .cp r → r.kind = .write → insideOne s n r = true →
      (s.windows.get n).kind = .staged → (s.windows.get n).group = g →
      ConsumerReexamined g s (s.setHead .cp (.answered ⟨.locked, []⟩))

/-! ## Terms of the statements about the monitors and the arbiter -/

/-- What the four monitors make of an access in `stream`, of kind `k`, at `words` in that order, between the state `s` in
which it is seen and the state `t` (R143, R146, R147, R149, R159). A monitor that the access hits counts the hit, counts an
overwrite when its record was full, and writes its record whole, with the first of the words in its range and the stamp of
its group; the others are as they were. The flags caused are HIT_Mm of each monitor hit, and CAPTURE_OVERWRITE when one of
their records was full: each has its value set and its *frame mark* yes, and the other flags and the enables are as they
were. -/
def MonitorsSee (stream : Requester) (k : Kind) (words : List Addr) (s t : State) : Prop :=
  ∀ (hit : Fin 4 → Option Addr) (caused : EventFlag → Bool),
    (∀ m : Fin 4, hit m =
      if (s.monitors.get m).cfg.enabled = true ∧ (s.monitors.get m).cfg.streams.has stream = true ∧
          (s.monitors.get m).cfg.kinds.has k = true then
        words.find? (fun a => decide ((s.monitors.get m).cfg.low.toNat ≤ a.toNat ∧
          a.toNat ≤ (s.monitors.get m).cfg.high.toNat))
      else none) →
    (∀ f : EventFlag, caused f = match f with
      | .hit m => (hit m).isSome
      | .captureOverwrite => four.any (fun m => (hit m).isSome && (s.monitors.get m).capture.full)
      | _ => false) →
    (∀ m : Fin 4, hit m = none → t.monitors.get m = s.monitors.get m) ∧
    (∀ (m : Fin 4) (a : Addr), hit m = some a → t.monitors.get m =
      { s.monitors.get m with
        hits := min ((s.monitors.get m).hits + 1) 65535
        overwrites := if (s.monitors.get m).capture.full then min ((s.monitors.get m).overwrites + 1) 255
          else (s.monitors.get m).overwrites
        capture := ⟨true, stream, k, a, (s.timer (s.monitors.get m).cfg.stamp).counter,
          (s.group (s.monitors.get m).cfg.stamp).openEpoch⟩ }) ∧
    (∀ f : EventFlag, t.events.isSet f = (s.events.isSet f || caused f) ∧
      t.events.mark.getLsbD f.bit = (s.events.mark.getLsbD f.bit || caused f)) ∧
    t.events.enable = s.events.enable

/-- Request `r` at the head of port `p` needs the memory (R127): it waits to be passed through, or it is a forwarded read
that the staged parts do not cover. -/
abbrev NeedsMemory (s : State) (p : PortId) (r : Request) : Prop :=
  PassesAt s p r ∨ ∃ (i : Fin 4) (cls : ReqClass), (s.port p).head? = some ⟨i, r, .head cls .forwarded⟩

/-! ## Terms of the statement about the BYPASS action -/

/-- Whether DISABLE_GROUP takes group `g` to DISABLED at once (R18): RUNNING or FAULTED, without entries or sealed epoch. -/
def endsAtOnce (s : State) (g : Fin 4) : Bool :=
  ((s.group g).state == .running || (s.group g).state == .faulted) &&
    ((s.group g).openCount == 0 && (s.group g).sealedCount == 0 && !(s.group g).hasSealed)

/-- Whether DISABLE_GROUP takes group `g` to STOPPING (R18): RUNNING or FAULTED, with entries or a sealed epoch. -/
def entersStopping (s : State) (g : Fin 4) : Bool :=
  ((s.group g).state == .running || (s.group g).state == .faulted) && !endsAtOnce s g

/-! ## Terms of the statement about the byte layouts (Section 10.7) -/

/-- A yes/no field: 0x01 for yes, 0x00 for no (R176). -/
def yesNo (b : Bool) : Byte := if b then 0x01 else 0x00

/-- A field of two bytes, most significant byte first (R176). -/
def twoBytes (n : Nat) : List Byte := [BitVec.ofNat 8 (n / 256), BitVec.ofNat 8 n]

/-- A field of four bytes, most significant byte first (R176). -/
def fourBytes (n : Nat) : List Byte :=
  [BitVec.ofNat 8 (n / 16777216), BitVec.ofNat 8 (n / 65536), BitVec.ofNat 8 (n / 256), BitVec.ofNat 8 n]

/-- The bit of a flag, or of its enable, in the table of Section 10.7.7. -/
def flagPosition : EventFlag → Nat
  | .sealed g => g.val
  | .committed g => 4 + g.val
  | .overrun g => 8 + g.val
  | .full g => 12 + g.val
  | .fault g => 16 + g.val
  | .hit m => 20 + m.val
  | .captureOverwrite => 24
  | .lockedHit => 25
  | .portError => 26
  | .memoryError => 27
  | .mgmtError => 28
  | .bypassReached => 29

end Sys2Proof.Machine
end

