-- ==== Sys2Proof/Certificates/Slice0/Obligations.lean ====
section
/-! DEFINITION. The statements for the provers. Each docstring names the rules of spec/ a statement formalises; where a
statement rests on a choice of the model, the docstring names the log entry. -/

open Sys2Proof Sys2Proof.Machine

/-! ## The queue of commands -/

/-- A step takes the command at the front of the queue and executes it with the queue's rest. -/
def Obligations.StepTakesTheFrontCommand : Prop :=
  ∀ (s : State) (c : Instr) (rest : List Instr), s.pending = c :: rest → step s = exec c { s with pending := rest }

/-- On an empty queue one rising edge of REFCLK passes (the model's choice, log entry 2), and every D-th edge is a
service tick (R100): an edge before the last of its tick period is counted; the last one does what SERVICE_TICK does, in
an order of the receivers that is free (log entry 6); while RSTn is asserted nothing is counted. -/
def Obligations.EmptyQueuePassesOneRefclkEdge : Prop :=
  ∀ s : State, s.pending = [] →
    (s.inReset = true → step s = .next s) ∧
    (s.inReset = false → s.tick.count + 1 < s.tick.inForce →
      step s = .next { s with tick := { s.tick with count := s.tick.count + 1 } }) ∧
    (s.inReset = false → s.tick.inForce ≤ s.tick.count + 1 →
      ∃ order : List TickSink, step s = exec (.serviceTick order) { s with freeIndex := s.freeIndex + 1 })

/-- Every command is executed in every state, and none touches the queue of waiting commands or draws a free value. That a
command answers a next state also where its event cannot arise, with nothing changed, is the model's choice (log entries 14
and 21). -/
def Obligations.EveryCommandCompletes : Prop :=
  ∀ (c : Instr) (s : State), ∃ t : State, exec c s = .next t ∧ t.pending = s.pending ∧ t.freeIndex = s.freeIndex

/-! ## Resets -/

/-- The values after power-on and RSTn that the chapters give (R1, R13, R15, R44, R61, R62, R100, R101, R118, R123,
R130, R135, R141, R151, R159, R161, R177). -/
def Obligations.ResetValuesAreTheSpecs : Prop :=
  (∀ n : Fin 8, State.reset.windows.get n = ⟨false, 0, 1, .staged, 0, false, .stall⟩) ∧
  (∀ g : Fin 4, State.reset.group g =
    ⟨⟨128, 1000, ⟨false, false, false, false⟩, .rising, true⟩, .disabled, 1, 0, false, 0, 0, 0, ⟨false, 0, 0, 0⟩⟩) ∧
  State.reset.queue = [] ∧ State.reset.commitReq = [] ∧ State.reset.engine = ⟨.idle, 0, []⟩ ∧
  State.reset.held = none ∧ State.reset.hp.slots = [] ∧ State.reset.cp.slots = [] ∧
  State.reset.issue = [] ∧ State.reset.pointer = .ce ∧ State.reset.tick = ⟨25, 25, 0⟩ ∧
  (∀ t : Fin 4, State.reset.timer t = ⟨.up, false, .tick 0, 65535, 0, false, 0, .up, none, none, 0⟩) ∧
  (∀ m : Fin 4, State.reset.monitors.get m =
    ⟨⟨false, 0, 0, ⟨false, false, false⟩, ⟨false, false⟩, 0⟩, 0, 0, ⟨false, .hp, .read, 0, 0, 0⟩⟩) ∧
  (∀ g : Fin 4, State.reset.lines.get g = ⟨.level, .activeHigh, 4, false, false, 0⟩) ∧
  State.reset.events = ⟨0, 0, 0⟩ ∧ State.reset.attn = false ∧ State.reset.mode = .bypass

/-- POWER_ON and RSTN_ASSERT put every block at its reset values and hold the part there: the slots are freed without
a response, the issue list is abandoned, a frame in progress is abandoned and the rest of its low period ignored, ATTN is
released and every commit line is low (R80, R139, R170, R182). RSTN_RELEASE then starts the part: each sync detector takes
the line's level as its reference (R119), and each port accepts the requests offered to it into its four free slots, in
order (R123). These clauses are the model's choices: the input levels, and the requests that masters still offer, are not
the part's to reset (log entry 11); POWER_ON is held exactly as RSTN_ASSERT, the sync references stand low while RSTn is
held, and RSTn that is not asserted is not released, with nothing changed (log entry 12); a port in reset shows no delivered
response (log entry 5). -/
def Obligations.RstnHoldsAndReleasesThePart : Prop :=
  (∀ s : State, ∃ t : State, exec .powerOn s = .next t ∧ exec .rstnAssert s = .next t ∧
     t = { State.reset with
       inReset := true
       chold := s.chold
       syncLine := s.syncLine
       hp := ⟨[], s.hp.offered, none⟩
       cp := ⟨[], s.cp.offered, none⟩
       mgmt := if s.mgmt.phase = .idle then ⟨.idle, [], none, [], none⟩ else ⟨.ignored, [], none, [], none⟩
       freeIndex := s.freeIndex
       pending := s.pending } ∧
     t.attn = false ∧ ∀ g : Fin 4, (t.lines.get g).pin = false) ∧
  (∀ s : State,
     (s.inReset = false → exec .rstnRelease s = .next s) ∧
     (s.inReset = true → s.hp.slots = [] → s.cp.slots = [] →
       ∃ hp cp : Port, exec .rstnRelease s =
           .next { s with inReset := false, syncRef := s.syncLine, hp := hp, cp := cp } ∧
         hp.slots.map Slot.req = s.hp.offered.take 4 ∧ hp.offered = s.hp.offered.drop 4 ∧
         hp.delivered = s.hp.delivered ∧ (∀ sl ∈ hp.slots, sl.phase = .waiting) ∧ (hp.slots.map Slot.id).Nodup ∧
         cp.slots.map Slot.req = s.cp.offered.take 4 ∧ cp.offered = s.cp.offered.drop 4 ∧
         cp.delivered = s.cp.delivered ∧ (∀ sl ∈ cp.slots, sl.phase = .waiting) ∧ (cp.slots.map Slot.id).Nodup))

/-- SOFT_RESET with argument 0x00, taken in any mode: the table of R183, field by field (R15, R37, R44, R78, R118, R137,
R138, R150, R158, R162), answered OK (R170); every configuration is kept. -/
def Obligations.SoftResetEndsAllStagingWork : Prop :=
  ∀ (s : State) (crc : Byte), RequestReady s [0x03, 0x03, 0x00] crc →
    exec (.softReset 0x00 crc) s = .next (replied [0xC0] { s with
      mode := .bypass
      groups := s.groups.map (fun x => ⟨x.cfg, .disabled, 1, 0, false, 0, 0, 0, ⟨false, 0, 0, 0⟩⟩)
      queue := []
      commitReq := []
      engine := ⟨.idle, s.engine.writeCount, []⟩
      hp := { s.hp with slots := s.hp.slots.map (fun sl => { sl with phase := .answered ⟨.reset, []⟩ }) }
      cp := { s.cp with slots := s.cp.slots.map (fun sl => { sl with phase := .answered ⟨.reset, []⟩ }) }
      issue := s.issue.map (fun r => { r with snapshot := none, entry := none, orphan := true })
      pointer := .ce
      timers := s.timers.map (fun x => { x with
        running := false
        counter := if x.mode = .down then x.period else 0
        direction := if x.mode = .down then .down else .up
        periodNext := none
        matchNext := none
        prescale := 0 })
      monitors := s.monitors.map (fun x => ⟨x.cfg, 0, 0, ⟨false, .hp, .read, 0, 0, 0⟩⟩)
      lines := s.lines.map (fun x => { x with
        countdown := 0, logic := if x.mode = .level then x.software else false })
      events := ⟨0, 0, s.events.enable⟩ })

/-! ## The master ports -/

/-- A request that arrives while its port has a free slot is accepted into it at once and waits there; one that arrives
while all four are occupied waits outside; while RSTn is asserted no port accepts (R123, R139). -/
def Obligations.RequestAcceptFillsAFreeSlot : Prop :=
  ∀ (s : State) (p : PortId) (r : Request),
    (s.inReset = true →
      exec (.requestAccept p r) s = .next (s.setPort p { s.port p with offered := (s.port p).offered ++ [r] })) ∧
    (s.inReset = false → 4 ≤ (s.port p).slots.length →
      exec (.requestAccept p r) s = .next (s.setPort p { s.port p with offered := (s.port p).offered ++ [r] })) ∧
    (s.inReset = false → (s.port p).slots.length < 4 → (s.port p).offered = [] →
      ∃ i : Fin 4, (∀ sl ∈ (s.port p).slots, sl.id ≠ i) ∧
        exec (.requestAccept p r) s =
          .next (s.setPort p { s.port p with slots := (s.port p).slots ++ [⟨i, r, .waiting⟩] }))

/-- A port delivers the response of its oldest request when that is answered: the slot is free, a request that waits to
be accepted is accepted, and the flag of the response code is set; otherwise there is nothing to deliver (R123, R126). -/
def Obligations.ResponseDeliveryFreesTheOldestSlot : Prop :=
  ∀ (s : State) (p : PortId),
    ((∀ sl ∈ (s.port p).slots.head?.toList, ∀ resp, sl.phase ≠ .answered resp) →
      exec (.responseDelivery p) s = .next s) ∧
    ∀ (i : Fin 4) (q : Request) (resp : Response) (rest : List Slot) (flagged : State),
      (s.port p).slots = ⟨i, q, .answered resp⟩ :: rest →
      flagged = (match resp.code with
        | .ok | .reset => s
        | .align | .length | .span => s.cause .portError
        | .full g => s.cause (.full g)
        | .locked => s.cause .lockedHit
        | .memory => s.cause .memoryError) →
      ((s.port p).offered = [] →
        exec (.responseDelivery p) s =
          .next (flagged.setPort p { slots := rest, offered := [], delivered := some resp })) ∧
      (∀ (r : Request) (more : List Request), (s.port p).offered = r :: more → rest.length = 3 →
        ∃ j : Fin 4, (∀ sl ∈ rest, sl.id ≠ j) ∧
          exec (.responseDelivery p) s =
            .next (flagged.setPort p
              { slots := rest ++ [⟨j, r, .waiting⟩], offered := more, delivered := some resp }))

/-- The three checks of form, in their order, and the BYPASS mode, in which the window table is not consulted (R6, R7,
R8, R9, R124): the request at the head is seen by the monitors and answered with the code of the first check that fails;
in BYPASS mode one that passes ALIGN and LENGTH waits to be passed through. -/
def Obligations.HeadProcessingChecksForm : Prop :=
  ∀ (s : State) (p : PortId) (i : Fin 4) (r : Request), (s.port p).head? = some ⟨i, r, .waiting⟩ →
    (r.addr.toNat % 4 ≠ 0 →
      exec (.headProcessing p) s = .next ((seenAtHead p r s).setHead p (.answered ⟨.align, []⟩))) ∧
    (r.addr.toNat % 4 = 0 → r.count.toNat = 0 ∨ 8 < r.count.toNat →
      exec (.headProcessing p) s = .next ((seenAtHead p r s).setHead p (.answered ⟨.length, []⟩))) ∧
    (FormSound r → s.mode ≠ .bypass → outsideAll s r = false → (∀ n : Fin 8, insideOne s n r = false) →
      exec (.headProcessing p) s = .next ((seenAtHead p r s).setHead p (.answered ⟨.span, []⟩))) ∧
    (FormSound r → s.mode = .bypass →
      exec (.headProcessing p) s = .next ((seenAtHead p r s).setHead p (.head .bypassed .passThrough)))

/-- The columns of the table of R10 that need no admission and no overlay: OUTSIDE, LOCKED, a DISABLED group, a write of
a STOPPING group (R35), and a read whose window does not forward (R83). The table of R11: every consumer request that
passes the checks waits to be passed through, except a write to a LOCKED window, or to a STAGED window of a group that is
not DISABLED, which is answered ERROR LOCKED. -/
def Obligations.RequestsAreHandledByClass : Prop :=
  (∀ (s : State) (i : Fin 4) (r : Request), s.hp.head? = some ⟨i, r, .waiting⟩ → FormSound r → s.mode ≠ .bypass →
     WindowsApart s →
     (outsideAll s r = true →
       exec (.headProcessing .hp) s = .next ((seenAtHead .hp r s).setHead .hp (.head .outside .passThrough))) ∧
     ∀ n : Fin 8, insideOne s n r = true →
       ((s.windows.get n).kind = .locked →
         (r.kind = .write →
           exec (.headProcessing .hp) s = .next ((seenAtHead .hp r s).setHead .hp (.answered ⟨.locked, []⟩))) ∧
         (r.kind = .read →
           exec (.headProcessing .hp) s = .next ((seenAtHead .hp r s).setHead .hp (.head (.locked n) .passThrough)))) ∧
       ((s.windows.get n).kind = .staged →
         ((s.group (s.windows.get n).group).state = .disabled →
           exec (.headProcessing .hp) s =
             .next ((seenAtHead .hp r s).setHead .hp (.head (stagedClass s n) .passThrough))) ∧
         ((s.group (s.windows.get n).group).state = .stopping → r.kind = .write →
           exec (.headProcessing .hp) s =
             .next ((seenAtHead .hp r s).setHead .hp (.head (stagedClass s n) (.held .disable none)))) ∧
         ((s.group (s.windows.get n).group).state ≠ .disabled → r.kind = .read → (s.windows.get n).forward = false →
           exec (.headProcessing .hp) s =
             .next ((seenAtHead .hp r s).setHead .hp (.head (stagedClass s n) .passThrough))))) ∧
  (∀ (s : State) (i : Fin 4) (r : Request), s.cp.head? = some ⟨i, r, .waiting⟩ → FormSound r → s.mode ≠ .bypass →
     WindowsApart s →
     (outsideAll s r = true →
       exec (.headProcessing .cp) s = .next ((seenAtHead .cp r s).setHead .cp (.head .outside .passThrough))) ∧
     ∀ n : Fin 8, insideOne s n r = true →
       (r.kind = .write →
         (s.windows.get n).kind = .locked ∨ (s.group (s.windows.get n).group).state ≠ .disabled →
         exec (.headProcessing .cp) s = .next ((seenAtHead .cp r s).setHead .cp (.answered ⟨.locked, []⟩))) ∧
       ((s.windows.get n).kind = .locked → r.kind = .read →
         exec (.headProcessing .cp) s = .next ((seenAtHead .cp r s).setHead .cp (.head (.locked n) .passThrough))) ∧
       ((s.windows.get n).kind = .staged →
         r.kind = .read ∨ (s.group (s.windows.get n).group).state = .disabled →
         exec (.headProcessing .cp) s =
           .next ((seenAtHead .cp r s).setHead .cp (.head (stagedClass s n) .passThrough))))

/-- A staged host write whose *need* fits the quota and the shared queue is admitted whole and answered OK (R24, R25,
R26, R27). The queue grows by the *need*: its old entries keep their places and keys, the new ones follow in beat order.
Each word with a non-empty mask ends in the group's OPEN entry at its address, coalesced or new; every other entry, and
every other word, is as it was. -/
def Obligations.HostWriteAdmittedWhole : Prop :=
  ∀ (s : State) (i : Fin 4) (r : Request) (n : Fin 8) (g : Fin 4),
    s.hp.head? = some ⟨i, r, .waiting⟩ → FormSound r → r.kind = .write → r.beats.length = r.count.toNat →
    s.mode ≠ .bypass → WindowsApart s → insideOne s n r = true → (s.windows.get n).kind = .staged →
    (s.windows.get n).group = g → (s.group g).state = .running ∨ (s.group g).state = .faulted →
    need s.queue g r + ((s.group g).openCount + (s.group g).sealedCount) ≤ (s.group g).cfg.quota →
    need s.queue g r + s.queue.length ≤ 512 →
    ∃ q : List Entry,
      exec (.headProcessing .hp) s = .next (({ seenAtHead .hp r s with
        queue := q
        groups := s.groups.set g { s.group g with openCount := (s.group g).openCount + need s.queue g r }
        }).setHead .hp (.answered ⟨.ok, []⟩)) ∧
      (q.take s.queue.length).map (fun e => (e.group, e.role, e.addr, e.issue)) =
        s.queue.map (fun e => (e.group, e.role, e.addr, e.issue)) ∧
      (q.drop s.queue.length).map (fun e => (e.group, e.role, e.addr, e.issue)) =
        ((requestBeats r).filter (countsAsNeed s.queue g)).map (fun w => (g, Role.opened, w.1, IssueState.notIssued)) ∧
      q.filter (fun e => e.group != g || e.role != .opened) =
        s.queue.filter (fun e => e.group != g || e.role != .opened) ∧
      (∀ w ∈ requestBeats r, w.2.mask ≠ LaneMask.none →
        q.find? (Entry.at g .opened w.1) = some (match s.queue.find? (Entry.at g .opened w.1) with
          | some e => { e with data := mergeLanes w.2.mask w.2.data e.data, mask := uniteLanes e.mask w.2.mask }
          | none => ⟨g, .opened, w.1, mergeLanes w.2.mask w.2.data Word.zero, w.2.mask, .notIssued⟩)) ∧
      (∀ a : Addr, (∀ w ∈ requestBeats r, w.1 = a → w.2.mask = LaneMask.none) →
        q.find? (Entry.at g .opened a) = s.queue.find? (Entry.at g .opened a))

/-- A staged host write that fails the admission test enters no word: under REFUSE it is answered ERROR FULL of its
group at once (R29), under STALL it is held at the head, with a hold timer unless the *stall timeout* is 0 (R30). -/
def Obligations.HostWriteNotAdmittedIsRefusedOrHeld : Prop :=
  ∀ (s : State) (i : Fin 4) (r : Request) (n : Fin 8) (g : Fin 4),
    s.hp.head? = some ⟨i, r, .waiting⟩ → FormSound r → r.kind = .write → s.mode ≠ .bypass → WindowsApart s →
    insideOne s n r = true → (s.windows.get n).kind = .staged → (s.windows.get n).group = g →
    (s.group g).state = .running ∨ (s.group g).state = .faulted →
    (s.group g).cfg.quota < need s.queue g r + ((s.group g).openCount + (s.group g).sealedCount) ∨
      512 < need s.queue g r + s.queue.length →
    ((s.windows.get n).policy = .refuse →
      exec (.headProcessing .hp) s = .next ((seenAtHead .hp r s).setHead .hp (.answered ⟨.full g, []⟩))) ∧
    ((s.windows.get n).policy = .stall →
      exec (.headProcessing .hp) s = .next ((seenAtHead .hp r s).setHead .hp (.head (stagedClass s n)
        (.held .admission (if (s.group g).cfg.stallTimeout = 0 then none else some (s.group g).cfg.stallTimeout)))))

/-- A forwarded host read (R82): when every word is fully covered by the staged parts it is answered from them alone,
word by word in burst order (R86); else it waits at the head for the memory (R87). The overlay source of a word (R84): its
sealed part copies data and lane mask of the group's SEALED entry at the word, its open part those of the group's OPEN
entry there, and a part is absent when there is no such entry; the word is fully covered when each of the four lanes is in
the mask of one of the parts. -/
def Obligations.ForwardedReadAtTheHead : Prop :=
  (∀ (s : State) (i : Fin 4) (r : Request) (n : Fin 8) (g : Fin 4),
    s.hp.head? = some ⟨i, r, .waiting⟩ → FormSound r → r.kind = .read → s.mode ≠ .bypass → WindowsApart s →
    insideOne s n r = true → (s.windows.get n).kind = .staged → (s.windows.get n).group = g →
    (s.windows.get n).forward = true → (s.group g).state ≠ .disabled →
    (((requestWords r).all (fun a => (overlayOf s.queue g a).full)) = true →
      exec (.headProcessing .hp) s = .next ((seenAtHead .hp r s).setHead .hp
        (.answered ⟨.ok, (requestWords r).map (fun a => (overlayOf s.queue g a).lay Word.zero)⟩))) ∧
    (((requestWords r).all (fun a => (overlayOf s.queue g a).full)) = false →
      exec (.headProcessing .hp) s = .next ((seenAtHead .hp r s).setHead .hp (.head (stagedClass s n) .forwarded)))) ∧
  (∀ (q : List Entry) (g : Fin 4) (a : Addr) (role : Role) (part : Overlay → Option OverlayPart),
    (role = .sealed ∧ part = Overlay.sealedPart) ∨ (role = .opened ∧ part = Overlay.openPart) →
    ((∀ e ∈ q, ¬ (e.group = g ∧ e.role = role ∧ e.addr = a)) → part (overlayOf q g a) = none) ∧
    (∀ (e : Entry) (l1 l2 : List Entry), q = l1 ++ e :: l2 → e.group = g → e.role = role → e.addr = a →
      (∀ y ∈ l1, ¬ (y.group = g ∧ y.role = role ∧ y.addr = a)) →
      part (overlayOf q g a) = some ⟨e.data, e.mask⟩)) ∧
  (∀ o : Overlay, o.full = true ↔
    ∀ lane : LaneMask → Bool,
      lane = LaneMask.lane0 ∨ lane = LaneMask.lane1 ∨ lane = LaneMask.lane2 ∨ lane = LaneMask.lane3 →
      ∃ x : OverlayPart, (o.sealedPart = some x ∨ o.openPart = some x) ∧ lane x.mask = true)

/-- What the four monitors make of a request at its port head (R143, R144, R146, R147, R149): `MonitorsSee` spells out the
hit, the counts, the record, the flags HIT_Mm and CAPTURE_OVERWRITE with their values and *frame marks*, and that no other
monitor, flag or enable changes. The stream is the port, and the words start at the word address and are *burst count* many,
or one when the count is 0. A cause of a flag sets the flag's value and makes its *frame mark* yes, and touches no other flag
and no enable (R159). -/
def Obligations.MonitorsSeeTheHeadRequest : Prop :=
  (∀ (s : State) (p : PortId) (i : Fin 4) (r : Request), (s.port p).head? = some ⟨i, r, .waiting⟩ →
    ∃ t : State, exec (.headProcessing p) s = .next t ∧
      MonitorsSee (PortId.requester p) r.kind
        ((List.range (if r.count.toNat = 0 then 1 else r.count.toNat)).map
          (fun k => BitVec.ofNat 32 (r.addr.toNat / 4 * 4 + 4 * k))) s t) ∧
  (∀ (e : EventBlock) (f k : EventFlag),
    (e.cause f).isSet k = (e.isSet k || decide (k = f)) ∧
    (e.cause f).mark.getLsbD k.bit = (e.mark.getLsbD k.bit || decide (k = f)) ∧
    (e.cause f).enable = e.enable)

/-! ## The arbiter -/

/-- The rotation (R134, R135): with RSTn released and room in the issue list, the grant goes to the first waiting
requester in the cyclic order HP, CP, CE, counting from the one after the pointer; the pointer then names it, and its
record stands at the tail of the list. The Host Port waits while its head needs the memory; the Consumer Port while its head
does and is no read with a word in an enabled STAGED window of the group being drained (R94); the engine while it has an
entry to offer, a member of the *retry list* or else one not issued (R65), and its *commit write count* is below 4 (R66).
With no requester waiting, no room, or RSTn asserted, no grant is made. The grant of
a port's head (R127, R131, R88): the request goes to memory unchanged, its record names its slot, a forwarded read's record
carries the overlay of each of its words as it stands, and the head moves to issued. -/
def Obligations.MemoryGrantRotatesAndPlaces : Prop :=
  (∀ s : State,
     (waits s .hp = true ↔ ∃ r : Request, NeedsMemory s .hp r) ∧
     (WindowsApart s → (waits s .cp = true ↔ ∃ r : Request, NeedsMemory s .cp r ∧
       ¬ (r.kind = .read ∧ ∃ g : Fin 4, s.engine.state = .draining g ∧ (requestWords r).any (inWindowOf s g) = true))) ∧
     (waits s .ce = true ↔ s.engine.writeCount < 4 ∧ ∃ g : Fin 4, s.engine.state = .draining g ∧
       ((∃ (a : Addr) (more : List Addr), s.engine.retry = a :: more ∧
           ∃ e ∈ s.queue, e.group = g ∧ e.role = .sealed ∧ e.addr = a) ∨
         (s.engine.retry = [] ∧ ∃ e ∈ s.queue, e.group = g ∧ e.role = .sealed ∧ e.issue = .notIssued)))) ∧
  (∀ s : State,
     (s.inReset = true ∨ 8 ≤ s.issue.length ∨ (∀ x : Requester, waits s x = false) →
       exec .memoryGrant s = .next s) ∧
     ∀ a b c w : Requester,
       (s.pointer = .ce ∧ a = .hp ∧ b = .cp ∧ c = .ce) ∨ (s.pointer = .hp ∧ a = .cp ∧ b = .ce ∧ c = .hp) ∨
         (s.pointer = .cp ∧ a = .ce ∧ b = .hp ∧ c = .cp) →
       w = (if waits s a then a else if waits s b then b else c) →
       s.inReset = false → s.issue.length < 8 → waits s w = true →
       ∃ (t : State) (x : IssueRec), exec .memoryGrant s = .next t ∧ chosen s = some w ∧ t.pointer = w ∧
         t.issue = s.issue ++ [x] ∧ x.requester = w ∧ x.orphan = false) ∧
  (∀ (s : State) (p : PortId) (i : Fin 4) (r : Request) (cls : ReqClass), chosen s = some (PortId.requester p) →
     ((s.port p).head? = some ⟨i, r, .head cls .passThrough⟩ →
       exec .memoryGrant s = .next (({ s with
         pointer := PortId.requester p
         issue := s.issue ++ [⟨PortId.requester p, r, some i, none, none, false⟩] } : State).setHead p .issued)) ∧
     ((s.port p).head? = some ⟨i, r, .head cls .forwarded⟩ →
       exec .memoryGrant s = .next (({ s with
         pointer := PortId.requester p
         issue := s.issue ++ [⟨PortId.requester p, r, some i,
           some ((requestWords r).map (overlayOf s.queue cls.group)), none, false⟩] } : State).setHead p .issued)))

/-- The grant of a commit write (R65, R66, R67): the oldest member of the *retry list* goes first, else the oldest SEALED
entry of the group that is not issued; a single-word WRITE with the entry's data and mask is placed with a reference to
the entry, the *commit write count* rises, an entry that was not issued becomes issued, and the monitors see a WRITE of the
entry's word in the CE stream (R145): `MonitorsSee` spells out their counts and records, and the flags with their *frame
marks*. Nothing else changes. -/
def Obligations.MemoryGrantIssuesACommitWrite : Prop :=
  ∀ (s : State) (g : Fin 4) (e : Entry), chosen s = some .ce → s.engine.state = .draining g →
    (∀ (a : Addr) (more : List Addr), s.engine.retry = a :: more → s.queue.find? (Entry.at g .sealed a) = some e) →
    (s.engine.retry = [] →
      s.queue.find? (fun x => x.group == g && x.role == .sealed && x.issue == .notIssued) = some e) →
    s.engine.writeCount < 4 ∧
    ∃ t : State, exec .memoryGrant s = .next t ∧ MonitorsSee .ce .write [e.addr] s t ∧
      t = { s with
        pointer := .ce
        issue := s.issue ++
          [⟨.ce, ⟨.write, e.addr, 1, [⟨e.data, e.mask⟩]⟩, none, none, some ⟨g, e.addr⟩, false⟩]
        queue := s.queue.map (fun x =>
          if (x.group = g ∧ x.role = .sealed ∧ x.addr = e.addr) ∧ x.issue = .notIssued then
            { x with issue := .issued } else x)
        engine := { s.engine with
          writeCount := s.engine.writeCount + 1, retry := s.engine.retry.erase e.addr }
        monitors := t.monitors
        events := t.events }

/-- The consumer fence at the grant (R94, R95): while the engine drains group g, no consumer read of a word in an enabled
STAGED window of g is placed on MP, and a fenced head that waits alone gets no grant. While the table and the staging path
agree, no memory write to a word of a STAGED window of a group that is not DISABLED is placed on MP except by the commit
engine (the last sentence of R11). -/
def Obligations.MemoryGrantKeepsTheFences : Prop :=
  (∀ (s : State) (g : Fin 4), s.engine.state = .draining g →
     (∀ (t : State) (x : IssueRec), exec .memoryGrant s = .next t → t.issue = s.issue ++ [x] → x.requester = .cp →
       x.req.kind = .read → WindowsApart s → (requestWords x.req).any (inWindowOf s g) = false) ∧
     (∀ (i : Fin 4) (r : Request) (cls : ReqClass), s.cp.head? = some ⟨i, r, .head cls .passThrough⟩ → r.kind = .read →
       WindowsApart s → (requestWords r).any (inWindowOf s g) = true → waits s .hp = false → waits s .ce = false →
       exec .memoryGrant s = .next s)) ∧
  (∀ (s t : State) (x : IssueRec), TableSound s → exec .memoryGrant s = .next t → t.issue = s.issue ++ [x] →
     x.req.kind = .write → x.requester ≠ .ce → clearOfStaging s x.req = true)

/-! ## Answers from memory -/

/-- The memory's answer to a pass-through request goes to its slot (R128, R132): OK with exactly *burst count* beats for
a read, missing beats zero and further beats ignored (R133), OK for a write, ERROR MEMORY for an ERROR; the record leaves
the list, and nothing else changes. An answer with no record to take it is discarded (R133); an orphan's answer, OK or
ERROR, only leaves the list and, for a CE record, lowers the *commit write count* (R79, R138). -/
def Obligations.PassThroughAndStrayAnswersAreRouted : Prop :=
  (∀ (s : State) (p : PortId) (x : IssueRec) (rest : List IssueRec) (i : Fin 4) (q : Request) (l1 l2 : List Slot)
     (a : AnswerStatus) (data : List Word),
     s.issue = x :: rest → x.requester = PortId.requester p → x.orphan = false → x.snapshot = none →
     x.slot = some i → (s.port p).slots = l1 ++ ⟨i, q, .issued⟩ :: l2 → (∀ sl ∈ l1 ++ l2, sl.id ≠ i) →
     exec (.memoryAnswer a data) s = .next (({ s with issue := rest } : State).setPort p { s.port p with
       slots := l1 ++ ⟨i, q, .answered
         (if a = .error then ⟨.memory, []⟩
           else if x.req.kind = .read then
             ⟨.ok, (List.range x.req.count.toNat).map (fun k => data.getD k Word.zero)⟩
           else ⟨.ok, []⟩)⟩ :: l2 })) ∧
  (∀ (s : State) (a : AnswerStatus) (data : List Word),
     (s.issue = [] → exec (.memoryAnswer a data) s = .next s) ∧
     (∀ (x : IssueRec) (rest : List IssueRec), s.issue = x :: rest → x.orphan = true →
       (x.requester ≠ .ce → exec (.memoryAnswer a data) s = .next { s with issue := rest }) ∧
       (x.requester = .ce → exec (.memoryAnswer a data) s =
         .next { s with issue := rest, engine := { s.engine with writeCount := s.engine.writeCount - 1 } })))

/-- The memory's answer to a forwarded read (R89, R92, R133): OK merges each beat with its word's record of the snapshot,
ERROR is answered ERROR MEMORY without data; and the table of R85, lane by lane: a lane of the open part, else a lane of
the sealed part, else the memory's lane. -/
def Obligations.ForwardedAnswerMergesTheSnapshot : Prop :=
  (∀ (s : State) (x : IssueRec) (rest : List IssueRec) (i : Fin 4) (q : Request) (l1 l2 : List Slot)
    (snap : List Overlay) (a : AnswerStatus) (data : List Word),
    s.issue = x :: rest → x.requester = .hp → x.orphan = false → x.snapshot = some snap →
    x.slot = some i → s.hp.slots = l1 ++ ⟨i, q, .issued⟩ :: l2 → (∀ sl ∈ l1 ++ l2, sl.id ≠ i) →
    exec (.memoryAnswer a data) s = .next { s with
      issue := rest
      hp := { s.hp with
        slots := l1 ++ ⟨i, q, .answered
          (if a = .error then ⟨.memory, []⟩
            else ⟨.ok, List.zipWith Overlay.lay snap
              ((List.range x.req.count.toNat).map (fun k => data.getD k Word.zero))⟩)⟩ :: l2 } }) ∧
  (∀ (o : Overlay) (w : Word) (lane : Word → Byte) (covers : LaneMask → Bool),
    (lane = Word.lane0 ∧ covers = LaneMask.lane0) ∨ (lane = Word.lane1 ∧ covers = LaneMask.lane1) ∨
      (lane = Word.lane2 ∧ covers = LaneMask.lane2) ∨ (lane = Word.lane3 ∧ covers = LaneMask.lane3) →
    lane (o.lay w) =
      match o.openPart.filter (fun x => covers x.mask), o.sealedPart.filter (fun x => covers x.mask) with
      | some x, _ => lane x.data
      | none, some y => lane y.data
      | none, none => lane w)

/-- The retry of a held admission (R31): a write held for admission that now fits is admitted and answered OK; one that
does not fit, and a write held for DISABLED, stay held; with no write held nothing is retried. -/
def Obligations.HeldAdmissionIsRetried : Prop :=
  ∀ t : State,
    (t.held = none → retryAdmission t = t) ∧
    (∀ h : HeldWrite, t.held = some h → h.cause = .disable → retryAdmission t = t) ∧
    (∀ h : HeldWrite, t.held = some h → h.cause = .admission →
      ((t.group h.cls.group).cfg.quota < need t.queue h.cls.group h.req +
          ((t.group h.cls.group).openCount + (t.group h.cls.group).sealedCount) ∨
        512 < need t.queue h.cls.group h.req + t.queue.length → retryAdmission t = t) ∧
      (need t.queue h.cls.group h.req +
          ((t.group h.cls.group).openCount + (t.group h.cls.group).sealedCount) ≤ (t.group h.cls.group).cfg.quota →
        need t.queue h.cls.group h.req + t.queue.length ≤ 512 →
        retryAdmission t = (admitWrite h.cls.group h.req t).setHead .hp (.answered ⟨.ok, []⟩) ∧
        (retryAdmission t).queue.length = t.queue.length + need t.queue h.cls.group h.req))

/-- The memory's answer to a commit write of the current drain that does not end it (R68 to R72, R40, R19): OK removes
the entry; a first ERROR makes it reissued and puts it on the *retry list*, which stands in queue order; a second ERROR
drops it, updates the fault record, sets FAULT_Gg and moves a RUNNING group to FAULTED. After a removal a held admission
is retried (R31). The record leaves the list and the *commit write count* falls by one. -/
def Obligations.CommitAnswerFollowsTheEntry : Prop :=
  ∀ (s base : State) (x : IssueRec) (rest : List IssueRec) (g : Fin 4) (e : Entry) (l1 l2 : List Entry)
    (data : List Word),
    s.issue = x :: rest → x.requester = .ce → x.orphan = false → x.entry = some ⟨g, e.addr⟩ →
    s.engine.state = .draining g → s.queue = l1 ++ e :: l2 → e.group = g → e.role = .sealed →
    (∀ y ∈ l1 ++ l2, y.at g .sealed e.addr = false) →
    base = { s with issue := rest, engine := { s.engine with writeCount := s.engine.writeCount - 1 } } →
    (e.issue = .issued →
      exec (.memoryAnswer .error data) s = .next { base with
        queue := l1 ++ { e with issue := .reissued } :: l2
        engine := { base.engine with
          retry := (s.queue.filter (fun y => y.group == g && y.role == .sealed &&
            (y.addr == e.addr || s.engine.retry.contains y.addr))).map Entry.addr } }) ∧
    ((l1 ++ l2).any (fun y => y.group == g && y.role == .sealed) = true →
      (e.issue ≠ .notIssued →
        exec (.memoryAnswer .ok data) s = .next (retryAdmission { base with
          queue := l1 ++ l2
          groups := s.groups.set g { s.group g with sealedCount := (s.group g).sealedCount - 1 } })) ∧
      (e.issue = .reissued →
        exec (.memoryAnswer .error data) s = .next (retryAdmission (({ base with
          queue := l1 ++ l2
          groups := s.groups.set g { s.group g with
            sealedCount := (s.group g).sealedCount - 1
            state := if (s.group g).state = .running then .faulted else (s.group g).state
            fault := if (s.group g).fault.valid then
                { (s.group g).fault with dropped := min ((s.group g).fault.dropped + 1) 255 }
              else ⟨true, e.addr, (s.group g).openEpoch - 1, 1⟩ } } : State).cause (.fault g)))))

/-- The answer that ends a drain: the OK answer that removes the group's last SEALED entry (R69), or the second ERROR that
drops it, with the fault record, FAULT_Gg and a RUNNING group's FAULTED state (R71, R72, R19), while no other commit write
of the group is outstanding (R73). The removal first retries a held admission (R31). Then the completion is made: the sealed
epoch's number becomes the last committed one, COMMITTED_Gg is caused, the commit line acts and the engine becomes IDLE
(R74, steps 1 to 4). In step 5 a STOPPING group makes its final seal when its open epoch holds entries, and reaches
DISABLED when it holds none (R58): a write held for it is released as a pass-through write with its class (R18, R36), and in
LEAVING the mode becomes BYPASS, with BYPASS_REACHED caused, exactly when every group is DISABLED, whether or not a write is
held (R180); a group in another state is passed over. In step 6 the start test is made (R75): the head of the queue, which
may be the group itself after its final seal, starts at once unless CHOLD is asserted. -/
def Obligations.LastCommitAnswerCompletesTheDrain : Prop :=
  ∀ (s base r u : State) (x : IssueRec) (rest : List IssueRec) (g : Fin 4) (e : Entry) (l1 l2 : List Entry)
    (a : AnswerStatus) (data : List Word),
    s.issue = x :: rest → x.requester = .ce → x.orphan = false → x.entry = some ⟨g, e.addr⟩ →
    s.engine.state = .draining g → s.queue = l1 ++ e :: l2 → e.group = g → e.role = .sealed →
    (l1 ++ l2).any (fun y => y.group == g && y.role == .sealed) = false → writeOutstanding rest g = false →
    base = { s with
      issue := rest
      queue := l1 ++ l2
      engine := { s.engine with writeCount := s.engine.writeCount - 1 } } →
    (a = .ok ∧ e.issue ≠ .notIssued ∧
        r = retryAdmission { base with
          groups := s.groups.set g { s.group g with sealedCount := (s.group g).sealedCount - 1 } }) ∨
      (a = .error ∧ e.issue = .reissued ∧
        r = retryAdmission (({ base with
          groups := s.groups.set g { s.group g with
            sealedCount := (s.group g).sealedCount - 1
            state := if (s.group g).state = .running then .faulted else (s.group g).state
            fault := if (s.group g).fault.valid then
                { (s.group g).fault with dropped := min ((s.group g).fault.dropped + 1) 255 }
              else ⟨true, e.addr, (s.group g).openEpoch - 1, 1⟩ } } : State).cause (.fault g))) →
    StartTest (completedAt g r) u →
    exec (.memoryAnswer a data) s = .next u

/-! ## Drain starts and CHOLD -/

/-- The start test at DRAIN_START and at the release of CHOLD (R63, R64): with the engine IDLE, a group waiting and CHOLD
not asserted, the head group is drained, with an empty *retry list*; a drain in progress, an empty queue or an asserted
CHOLD starts nothing; asserting CHOLD, or releasing it when it is not asserted, changes nothing else. Every state has an
outcome of the start test. A sealed epoch with nothing to write completes at its start, without a memory access, and the
next head then starts (R48, R73, R74): spelled out for the release of CHOLD, which a run reaches, and for DRAIN_START,
which finds such a head only in states that no run reaches (the last statement below rules them out). -/
def Obligations.DrainStartsAtTheStartTest : Prop :=
  (∀ s : State,
     exec (.choldChange true) s = .next { s with chold := true } ∧
     (s.chold = false → exec (.choldChange false) s = .next s) ∧
     (∃ u : State, StartTest s u) ∧
     (∀ u : State, StartTest s u → exec .drainStart s = .next u) ∧
     (∀ u : State, s.chold = true → StartTest { s with chold := false } u →
       exec (.choldChange false) s = .next u) ∧
     (s.engine.state ≠ .idle ∨ s.commitReq = [] ∨ s.chold = true → exec .drainStart s = .next s) ∧
     (s.engine.state ≠ .idle ∨ s.commitReq = [] → exec (.choldChange false) s = .next { s with chold := false }) ∧
     ∀ (g : Fin 4) (rest : List (Fin 4)), s.engine.state = .idle → s.commitReq = g :: rest →
       hasSealedEntry s.queue g = true →
       (s.chold = false → exec .drainStart s =
         .next { s with commitReq := rest, engine := { s.engine with state := .draining g, retry := [] } }) ∧
       (s.chold = true → exec (.choldChange false) s =
         .next { s with
           chold := false, commitReq := rest, engine := { s.engine with state := .draining g, retry := [] } })) ∧
  (∀ (s c : State) (g : Fin 4) (rest : List (Fin 4)), s.engine.state = .idle → s.commitReq = g :: rest →
     hasSealedEntry s.queue g = false → writeOutstanding s.issue g = false →
     (s.group g).state = .running ∨ (s.group g).state = .faulted →
     c = { s with
       chold := false
       commitReq := rest
       engine := { s.engine with state := .idle, retry := [] }
       groups := s.groups.set g { s.group g with
         lastCommitted := (s.group g).openEpoch - 1, hasSealed := false }
       events := s.events.cause (.committed g)
       lines := s.lines.set g (lineCompleted (s.lines.get g)) } →
     (rest = [] →
       (s.chold = true → exec (.choldChange false) s = .next c) ∧ (s.chold = false → exec .drainStart s = .next c)) ∧
     (∀ (h : Fin 4) (more : List (Fin 4)), rest = h :: more → hasSealedEntry s.queue h = true →
       (s.chold = true → exec (.choldChange false) s = .next { c with
         commitReq := more, engine := { s.engine with state := .draining h, retry := [] } }) ∧
       (s.chold = false → exec .drainStart s = .next { c with
         commitReq := more, engine := { s.engine with state := .draining h, retry := [] } })))

/-! ## Time -/

/-- HOLD_TIMER_EXPIRY at the last tick of the hold timer answers the held write ERROR FULL of its group, whichever cause
holds it, and changes no entry; with more ticks to come, without a timer, or with no held write there is no expiry (R30,
R32, R33, R35). PULSE_END at a countdown of 1 makes the line inactive and the countdown 0; at any other countdown the line is
not moved (R154). That these rows are the last tick as its own block takes it, and that they leave the state as it is
before that tick, is the model's reading (log entries 3 and 14). -/
def Obligations.ExpiriesEndTheirCounts : Prop :=
  (∀ s : State,
     (∀ (h : HeldWrite) (k : Nat), s.held = some h → h.timer = some k → k ≤ 1 →
       exec .holdTimerExpiry s = .next (s.setHead .hp (.answered ⟨.full h.cls.group, []⟩))) ∧
     (∀ (h : HeldWrite) (k : Nat), s.held = some h → h.timer = some k → 1 < k → exec .holdTimerExpiry s = .next s) ∧
     (∀ h : HeldWrite, s.held = some h → h.timer = none → exec .holdTimerExpiry s = .next s) ∧
     (s.held = none → exec .holdTimerExpiry s = .next s)) ∧
  (∀ (s : State) (g : Fin 4),
     ((s.lines.get g).countdown ≠ 1 → exec (.pulseEnd g) s = .next s) ∧
     ((s.lines.get g).countdown = 1 →
       exec (.pulseEnd g) s = .next { s with lines := s.lines.set g { s.lines.get g with countdown := 0, logic := false } }))

/-- One service tick reaches every receiver exactly once, in whatever order they take it (R100). Every timer takes its own
step: a RUNNING tick-driven prescaler rises by one, or steps its timer and starts again (R102). Where no timer's step
emits a chosen seal source, the hold timer loses one tick or expires (R30, R32), each countdown above 0 falls by one and at 0
its line is inactive (R154), and nothing else changes. Where boundary events arise, and no start was left undone before,
the hold timer takes its one tick too, and each countdown falls once: a line whose group gets no boundary event moves as
above; one whose group gets one takes its tick before or after what the event does to the line. That a tick begins the
next tick period at any edge count, with the count 0 and the divisor last set in force, is the model's choice (log entry 13),
and so is the freedom of the order (log entry 6). -/
def Obligations.ServiceTickReachesEveryReceiverOnce : Prop :=
  ∀ (s : State) (order : List TickSink) (stepped : Fin 4 → Bool) (timers : Four Timer),
    s.inReset = false →
    (∀ t : Fin 4, stepped t = match (s.timer t).running, (s.timer t).source with
      | true, .tick k => decide (2 ^ k.val ≤ (s.timer t).prescale + 1)
      | _, _ => false) →
    timers = s.timers.map (fun x => match x.running, x.source with
      | true, .tick k =>
        if 2 ^ k.val ≤ x.prescale + 1 then Timer.step { x with prescale := 0 } else { x with prescale := x.prescale + 1 }
      | _, _ => x) →
    (∀ base : State, (∀ t : Fin 4, stepped t = true → (s.group t).cfg.sources.chosenBy (s.timer t).emits = false) →
      base = { s with
        tick := { s.tick with inForce := s.tick.divisor, count := 0 }
        timers := timers
        lines := s.lines.map lineTicked } →
      ((∀ h : HeldWrite, s.held = some h → h.timer = none) → exec (.serviceTick order) s = .next base) ∧
      (∀ (h : HeldWrite) (k : Nat), s.held = some h → h.timer = some k →
        exec (.serviceTick order) s = .next (base.setHead .hp
          (if k ≤ 1 then .answered ⟨.full h.cls.group, []⟩ else .head h.cls (.held h.cause (some (k - 1))))))) ∧
    ∃ u : State, exec (.serviceTick order) s = .next u ∧
      u.tick = { s.tick with inForce := s.tick.divisor, count := 0 } ∧ u.timers = timers ∧
      (NoStartLeft s →
        ((∀ h : HeldWrite, s.held = some h → h.timer = none) → u.hp = s.hp) ∧
        (∀ (h : HeldWrite) (k : Nat), s.held = some h → h.timer = some k →
          u.hp = s.hp.setHead
            (if k ≤ 1 then .answered ⟨.full h.cls.group, []⟩ else .head h.cls (.held h.cause (some (k - 1))))) ∧
        ∀ g : Fin 4,
          (stepped g = false ∨ (s.group g).cfg.sources.chosenBy (s.timer g).emits = false →
            u.lines.get g = lineTicked (s.lines.get g)) ∧
          ∃ f : Line → Line, (f = id ∨ f = lineSealed ∨ f = lineCompleted ∘ lineSealed) ∧
            (u.lines.get g = f (lineTicked (s.lines.get g)) ∨ u.lines.get g = lineTicked (f (s.lines.get g))))

/-- UP mode: a step from c below P goes to c + 1 without WRAP, a step from P goes to 0 with WRAP, MATCH is emitted when
the result is M, and the *direction* reads up; so from a counter of 0 the counter runs 0, 1, …, P and the first WRAP is
that of the (P + 1)th step (R103, with R106 and R115). A step that emits no chosen seal source changes the timer alone.
That TIMER_STEP brings the count event at any *prescale count*, and leaves it 0, is the model's choice (log entry 3). -/
def Obligations.TimerUpSteps : Prop :=
  (∀ (s : State) (t : Fin 4) (x : Timer), s.timer t = x → x.running = true → x.mode = .up →
    (x.counter.toNat < x.period.toNat →
      x.emits = ⟨false, false, decide (x.counter + 1 = x.matchAt)⟩ ∧
      ((s.group t).cfg.sources.chosenBy x.emits = false → exec (.timerStep t) s = .next { s with
        timers := s.timers.set t { x with counter := x.counter + 1, direction := .up, prescale := 0 } })) ∧
    (x.counter = x.period →
      x.emits = ⟨true, false, decide (0 = x.matchAt)⟩ ∧
      ((s.group t).cfg.sources.chosenBy x.emits = false → exec (.timerStep t) s = .next { s with
        timers := s.timers.set t { x with
          counter := 0, direction := .up, prescale := 0, running := !x.oneShot
          period := x.periodNext.getD x.period, matchAt := x.matchNext.getD x.matchAt
          periodNext := none, matchNext := none } }))) ∧
  (∀ x : Timer, x.mode = .up → x.counter = 0 →
    (∀ n : Nat, n ≤ x.period.toNat →
      (Timer.step^[n] x).counter.toNat = n ∧ (Timer.step^[n] x).direction = (if n = 0 then x.direction else .up) ∧
      (Timer.step^[n] x).emits.wrap = decide (n = x.period.toNat)) ∧
    (Timer.step^[x.period.toNat + 1] x).counter = 0)

/-- DOWN mode: a step from c above 0 goes to c - 1 without WRAP; a step from 0 reloads the period, the pending one when
one is pending, with WRAP and without MATCH, and the *direction* reads down; so from a counter of P the counter runs
P, P - 1, …, 0 and the first WRAP is that of the (P + 1)th step (R104, with R106 and R115). That TIMER_STEP brings the
count event at any *prescale count*, and leaves it 0, is the model's choice (log entry 3). -/
def Obligations.TimerDownSteps : Prop :=
  (∀ (s : State) (t : Fin 4) (x : Timer), s.timer t = x → x.running = true → x.mode = .down →
    (x.counter ≠ 0 →
      x.emits = ⟨false, false, decide (x.counter - 1 = x.matchAt)⟩ ∧
      ((s.group t).cfg.sources.chosenBy x.emits = false → exec (.timerStep t) s = .next { s with
        timers := s.timers.set t { x with counter := x.counter - 1, direction := .down, prescale := 0 } })) ∧
    (x.counter = 0 →
      x.emits = ⟨true, false, false⟩ ∧
      ((s.group t).cfg.sources.chosenBy x.emits = false → exec (.timerStep t) s = .next { s with
        timers := s.timers.set t { x with
          counter := x.periodNext.getD x.period, direction := .down, prescale := 0, running := !x.oneShot
          period := x.periodNext.getD x.period, matchAt := x.matchNext.getD x.matchAt
          periodNext := none, matchNext := none } }))) ∧
  (∀ x : Timer, x.mode = .down → x.counter = x.period →
    (∀ n : Nat, n ≤ x.period.toNat →
      (Timer.step^[n] x).counter.toNat = x.period.toNat - n ∧
      (Timer.step^[n] x).direction = (if n = 0 then x.direction else .down) ∧
      (Timer.step^[n] x).emits.wrap = decide (n = x.period.toNat)) ∧
    (Timer.step^[x.period.toNat + 1] x).counter = x.periodNext.getD x.period)

/-- UPDOWN mode: with *direction* up a step goes to c + 1, and at P emits PEAK and turns down; with *direction* down it
goes to c - 1, and at 0 emits WRAP and turns up; MATCH is emitted when the result is M; so from a counter of 0 with
*direction* up PEAK is that of the Pth step and WRAP that of the (2 × P)th (R105, with R106 and R115). That TIMER_STEP
brings the count event at any *prescale count*, and leaves it 0, is the model's choice (log entry 3). -/
def Obligations.TimerUpDownSteps : Prop :=
  (∀ (s : State) (t : Fin 4) (x : Timer), s.timer t = x → x.running = true → x.mode = .upDown →
    (x.direction = .up →
      x.emits = ⟨false, decide (x.counter + 1 = x.period), decide (x.counter + 1 = x.matchAt)⟩ ∧
      ((s.group t).cfg.sources.chosenBy x.emits = false → exec (.timerStep t) s = .next { s with
        timers := s.timers.set t { x with
          counter := x.counter + 1, prescale := 0
          direction := if x.counter + 1 = x.period then .down else .up } })) ∧
    (x.direction = .down → x.counter ≠ 1 →
      x.emits = ⟨false, false, decide (x.counter - 1 = x.matchAt)⟩ ∧
      ((s.group t).cfg.sources.chosenBy x.emits = false → exec (.timerStep t) s = .next { s with
        timers := s.timers.set t { x with counter := x.counter - 1, direction := .down, prescale := 0 } })) ∧
    (x.direction = .down → x.counter = 1 →
      x.emits = ⟨true, false, decide (0 = x.matchAt)⟩ ∧
      ((s.group t).cfg.sources.chosenBy x.emits = false → exec (.timerStep t) s = .next { s with
        timers := s.timers.set t { x with
          counter := 0, direction := .up, prescale := 0, running := !x.oneShot
          period := x.periodNext.getD x.period, matchAt := x.matchNext.getD x.matchAt
          periodNext := none, matchNext := none } }))) ∧
  (∀ x : Timer, x.mode = .upDown → x.counter = 0 → x.direction = .up → x.period ≠ 0 →
    ∀ n : Nat, n < 2 * x.period.toNat →
      (Timer.step^[n] x).counter.toNat = (if n ≤ x.period.toNat then n else 2 * x.period.toNat - n) ∧
      (Timer.step^[n] x).emits.peak = decide (n + 1 = x.period.toNat) ∧
      (Timer.step^[n] x).emits.wrap = decide (n + 1 = 2 * x.period.toNat))

/-- A boundary event at a timer step (R49 to R52): it is ignored by a group that is not RUNNING; it is an overrun, counted
and flagged, when a sealed epoch exists; it has no effect on an empty open epoch under *seal empty* = no; else it seals
the open epoch (R47, R38, R46) and brings the start test (R63): the epoch waits while CHOLD or another drain holds it back,
an epoch with entries is else drained at once, and an empty one completes at its start within the seal (R48). A STOPPED
timer steps for no count event. That TIMER_STEP brings the count event at any *prescale count*, and leaves it 0, is the
model's choice (log entry 3). -/
def Obligations.BoundaryEventSealsOrOverruns : Prop :=
  ∀ (s s1 : State) (t : Fin 4),
    ((s.timer t).running = false → exec (.timerStep t) s = .next s) ∧
    ((s.timer t).running = true → (s.group t).cfg.sources.chosenBy (s.timer t).emits = true →
      s1 = { s with timers := s.timers.set t (Timer.step { s.timer t with prescale := 0 }) } →
      ((s.group t).state ≠ .running → exec (.timerStep t) s = .next s1) ∧
      ((s.group t).state = .running → (s.group t).hasSealed = true →
        exec (.timerStep t) s = .next { s1 with
          groups := s.groups.set t { s.group t with overruns := min ((s.group t).overruns + 1) 255 }
          events := s.events.cause (.overrun t) }) ∧
      ((s.group t).state = .running → (s.group t).hasSealed = false → (s.group t).openCount = 0 →
        (s.group t).cfg.sealEmpty = false → exec (.timerStep t) s = .next s1) ∧
      ((s.group t).state = .running → (s.group t).hasSealed = false →
        0 < (s.group t).openCount ∨ (s.group t).cfg.sealEmpty = true →
        (∀ u : State, StartTest (sealedAt t s1) u → exec (.timerStep t) s = .next u) ∧
        (s.chold = true ∨ s.engine.state ≠ .idle → exec (.timerStep t) s = .next (sealedAt t s1)) ∧
        (s.chold = false → s.engine.state = .idle → s.commitReq = [] →
          (s.queue.any (fun e => e.group == t && e.role == .opened) = true →
            exec (.timerStep t) s = .next { sealedAt t s1 with
              commitReq := [], engine := { s.engine with state := .draining t, retry := [] } }) ∧
          (s.queue.any (fun e => e.group == t) = false → writeOutstanding s.issue t = false →
            exec (.timerStep t) s = .next { drained t (sealedAt t s1) with
              commitReq := [], engine := { s.engine with state := .idle, retry := [] } }))))

/-- SYNCt settles at a level (R119, R120): no transition when the level is the reference level; else the new level is the
reference, and at most one of two things happens. A RUNNING timer that counts this edge steps, and a chosen seal source
among the events of its step brings a boundary event; or a group that has SYNC among its seal sources and takes this edge
gets a boundary event. A boundary event acts as R50 to R52 give, with the start test that a seal brings (R47, R48, R63).
Without either, nothing else changes. (Both at once is what R112 rules out.) While RSTn is asserted only the line's level is
kept: the model's choice (log entry 14). -/
def Obligations.SyncTransitionCountsOrBounds : Prop :=
  ∀ (s s0 : State) (t : Fin 4) (level : Bool) (counts bounds : Prop),
    (s.inReset = true ∨ s.syncRef.get t = level →
      exec (.syncTransition t level) s = .next { s with syncLine := s.syncLine.set t level }) ∧
    (s.inReset = false → s.syncRef.get t ≠ level →
      s0 = { s with syncLine := s.syncLine.set t level, syncRef := s.syncRef.set t level } →
      (counts ↔ (s.timer t).running = true ∧ ∃ e : Edge, (s.timer t).source = .sync e ∧
        (e = .both ∨ e = if level then .rising else .falling)) →
      (bounds ↔ (s.group t).cfg.sources.sync = true ∧
        ((s.group t).cfg.syncEdge = .both ∨ (s.group t).cfg.syncEdge = if level then .rising else .falling)) →
      (¬ counts → ¬ bounds → exec (.syncTransition t level) s = .next s0) ∧
      (¬ counts → bounds → ∀ u : State, BoundaryGives t s0 u → exec (.syncTransition t level) s = .next u) ∧
      (counts → ¬ bounds → (s.group t).cfg.sources.chosenBy (s.timer t).emits = false →
        exec (.syncTransition t level) s = .next { s0 with timers := s.timers.set t (s.timer t).step }) ∧
      (counts → ¬ bounds → (s.group t).cfg.sources.chosenBy (s.timer t).emits = true →
        ∀ u : State, BoundaryGives t { s0 with timers := s.timers.set t (s.timer t).step } u →
          exec (.syncTransition t level) s = .next u)) ∧
    ∃ u : State, BoundaryGives t s u

/-! ## The management link -/

/-- The edges of MCSn (R159, R163, R169, R170): a fall starts a frame and makes every frame mark no, and starts none while
RSTn is asserted; a rise ends the frame, and one whose request is not complete sets MGMT_ERROR. MCSn that is low does not
fall, and MCSn that is high does not rise. -/
def Obligations.FramesStartAndEnd : Prop :=
  ∀ s : State,
    (s.mgmt.phase = .idle → s.inReset = false → exec .frameStart s =
      .next { s with mgmt := ⟨.request, [], none, [], none⟩, events := { s.events with mark := 0 } }) ∧
    (s.mgmt.phase = .idle → s.inReset = true →
      exec .frameStart s = .next { s with mgmt := ⟨.ignored, [], none, [], none⟩ }) ∧
    (s.mgmt.phase ≠ .idle → exec .frameStart s = .next s) ∧
    (s.mgmt.phase = .idle → exec .frameEnd s = .next s) ∧
    (s.mgmt.phase = .request →
      exec .frameEnd s = .next (({ s with mgmt := ⟨.idle, [], none, [], none⟩ } : State).cause .mgmtError)) ∧
    (s.mgmt.phase = .reply ∨ s.mgmt.phase = .trailer ∨ s.mgmt.phase = .ignored →
      exec .frameEnd s = .next { s with mgmt := ⟨.idle, [], none, [], none⟩ })

/-- One byte clocked (R164, R165): a request byte that does not complete its request is kept while 0x00 is shifted out,
and the number byte fixes the length; a byte of the reply shifts out the next reply byte, the last one beginning the
trailer; a byte of the trailer shifts out 0x00; outside a frame, and in a low period that is ignored, nothing happens. -/
def Obligations.ClockedByteMovesThePhase : Prop :=
  ∀ (s : State) (b : Byte),
    (s.mgmt.phase = .idle ∨ s.mgmt.phase = .ignored → exec (.requestByteReceived b) s = .next s) ∧
    (s.mgmt.phase = .trailer → exec (.requestByteReceived b) s = .next { s with mgmt := { s.mgmt with miso := some 0 } }) ∧
    (∀ (x : Byte) (more : List Byte), s.mgmt.phase = .reply → s.mgmt.reply = x :: more →
      exec (.requestByteReceived b) s = .next { s with mgmt := { s.mgmt with
        reply := more, miso := some x, phase := if more = [] then .trailer else .reply } }) ∧
    (s.mgmt.phase = .request → s.mgmt.received = [] → s.mgmt.length = none →
      exec (.requestByteReceived b) s = .next { s with mgmt := { s.mgmt with received := [b], miso := some 0 } }) ∧
    (∀ cmd : Byte, s.mgmt.phase = .request → s.mgmt.received = [cmd] →
      exec (.requestByteReceived b) s = .next { s with mgmt := { s.mgmt with
        received := [cmd, b], length := some (requestLength cmd b), miso := some 0 } }) ∧
    (∀ n : Nat, s.mgmt.phase = .request → 2 ≤ s.mgmt.received.length → s.mgmt.length = some n →
      s.mgmt.received.length + 1 < n →
      exec (.requestByteReceived b) s = .next { s with mgmt := { s.mgmt with
        received := s.mgmt.received ++ [b], miso := some 0 } })

/-- The CRC-8 of R166 on its check values and on the worked frames of Section 10.8, and CRC 0x00 of every sequence followed
by its own CRC. The request bytes of R165 and Section 10.7, written out, spell their commands: GET DEVICE, PUT DEVICE and
DO SEAL of Section 10.8, and one PUT of each other writable object. -/
def Obligations.WorkedFramesAndTheirCrcs : Prop :=
  (crc8 [0x31, 0x32, 0x33, 0x34, 0x35, 0x36, 0x37, 0x38, 0x39] = 0xF4 ∧ crc8 [0x01] = 0x07 ∧
   crc8 [0x01, 0x01] = 0x12 ∧ crc8 [0xC0, 0x00, 0x00, 0x19] = 0xE5 ∧
   crc8 [0x02, 0x01, 0x00, 0x00, 0x32] = 0x4C ∧ crc8 [0x03, 0x12, 0x02] = 0xCE ∧
   (∀ bs : List Byte, crc8 (bs ++ [crc8 bs]) = 0)) ∧
  (decodeRequest [0x01, 0x01, 0x12] = .ok (.get .device 0x12) ∧
   decodeRequest [0x01, 0x4A, 0x00] = .ok (.getCapture 2 0x00) ∧
   decodeRequest [0x02, 0x01, 0x00, 0x00, 0x32, 0x4C] = .ok (.putDevice ⟨0x00, 50⟩ 0x4C) ∧
   decodeRequest [0x03, 0x12, 0x02, 0xCE] = .ok (.sealGroup 0x02 0xCE) ∧
   decodeRequest [0x02, 0x15, 0x01, 0x20, 0x00, 0x10, 0x00, 0x00, 0x00, 0x00, 0x04, 0x00, 0x03, 0x01, 0x01, 0x77] =
     .ok (.putWindow 5 ⟨0x01, 0x20001000, 0x00000004, 0x00, 0x03, 0x01, 0x01⟩ 0x77) ∧
   decodeRequest [0x02, 0x22, 0x00, 0x80, 0x03, 0xE8, 0x09, 0x01, 0x01, 0x77] =
     .ok (.putGroupCfg 2 ⟨128, 1000, 0x09, 0x01, 0x01⟩ 0x77) ∧
   decodeRequest [0x02, 0x31, 0x02, 0x00, 0x00, 0x0F, 0x12, 0x34, 0x00, 0x01, 0x77] =
     .ok (.putTimerCfg 1 ⟨0x02, 0x00, 0x00, 0x0F, 0x1234, 1⟩ 0x77) ∧
   decodeRequest [0x02, 0x43, 0x01, 0x20, 0x00, 0x00, 0x00, 0x20, 0x00, 0x00, 0xFC, 0x05, 0x02, 0x01, 0x77] =
     .ok (.putMonCfg 3 ⟨0x01, 0x20000000, 0x200000FC, 0x05, 0x02, 0x01⟩ 0x77) ∧
   decodeRequest [0x02, 0x50, 0x01, 0x01, 0x04, 0x00, 0x00, 0x77] = .ok (.putCmtCfg 0 ⟨1, 1, 4, 0, 0⟩ 0x77) ∧
   decodeRequest [0x02, 0x03, 0x20, 0x00, 0x00, 0x01, 0x77] = .ok (.putEvents 0x20000001 0x77) ∧
   decodeRequest [0x02, 0x04, 0x00, 0x00, 0x01, 0x10, 0x77] = .ok (.putEventEn 0x00000110 0x77) ∧
   decodeRequest [0x02, 0x00, 0x04, 0x28, 0x01, 0x01, 0x77] = .ok (.readOnlyPut .ident [0x04, 0x28, 0x01, 0x01] 0x77) ∧
   decodeRequest [0x02, 0x05, 0x77] = .ok (.unknownRequest 0x02 0x05 none 0x77) ∧
   decodeRequest [0x03, 0x04, 0x00, 0x77] = .ok (.unknownRequest 0x03 0x04 (some 0x00) 0x77) ∧
   decodeRequest [0x09, 0x01, 0x77] = .ok (.unknownRequest 0x09 0x01 none 0x77))

/-- The request bytes of a management command and the command they spell determine each other (R165, R172, R175, R176):
the bytes of every well-formed command spell it again, and bytes that spell a command are its own bytes, which is well
formed. -/
def Obligations.RequestBytesAndCommandsAgree : Prop :=
  (∀ (c : Instr) (bytes : List Byte), c.wf = true → encodeRequest c = some bytes → decodeRequest bytes = .ok c) ∧
  (∀ (c : Instr) (bytes : List Byte), decodeRequest bytes = .ok c → encodeRequest c = some bytes ∧ c.wf = true)

/-- A request clocked in byte by byte does what its command does whole (R164, R165, R167): from the first byte of a frame,
clocking in the bytes of a well-formed management command leaves the part as executing the command does. That a command of
the table stands for the bytes of its request still to be clocked in is the model's choice (log entry 4). -/
def Obligations.BytesDoWhatTheirCommandDoes : Prop :=
  ∀ (c : Instr) (bytes : List Byte) (s : State), c.wf = true → encodeRequest c = some bytes →
    s.mgmt.phase = .request → s.mgmt.received = [] → s.mgmt.length = none →
    Host.Core.run Sys2Proof.core bytes.length { s with pending := bytes.map .requestByteReceived } =
      exec c { s with pending := [] }

/-- The first three checks of R167: a request whose CRC byte is wrong is answered CRC and sets MGMT_ERROR, whatever it
would do; one that names nothing is answered UNKNOWN and sets MGMT_ERROR; a PUT of a read-only object is answered
READ_ONLY. The argument checks of R175: a group or timer number above 3, an argument of ACTIVATE, BYPASS or SOFT_RESET
other than 0x00, and a SET_CMT argument whose group is above 3 or whose level code is above 1 are refused with BAD_VALUE.
None has another effect. -/
def Obligations.RefusedRequestsChangeNothing : Prop :=
  (∀ s : State, s.mgmt.phase = .request →
     (∀ (c : Instr) (body : List Byte), c.wf = true → c.requestBody = some body →
       s.mgmt.received.isPrefixOf body = true → crc8 body ≠ c.requestCrc →
       exec c s = .next (replied [0xC6] (s.cause .mgmtError))) ∧
     (∀ (cmd num : Byte) (arg : Option Byte) (crc : Byte), (Instr.unknownRequest cmd num arg crc).wf = true →
       RequestReady s (cmd :: num :: arg.toList) crc →
       exec (.unknownRequest cmd num arg crc) s = .next (replied [0xC7] (s.cause .mgmtError))) ∧
     (∀ (o : Obj) (payload : List Byte) (crc : Byte), o.readOnly = true → payload.length = o.length →
       RequestReady s (0x02 :: o.number :: payload) crc →
       exec (.readOnlyPut o payload crc) s = .next (replied [0xC8] s))) ∧
  (∀ (s : State) (arg crc : Byte),
     (3 < arg.toNat →
       (RequestReady s [0x03, 0x10, arg] crc → exec (.enableGroup arg crc) s = .next (replied [0xC2] s)) ∧
       (RequestReady s [0x03, 0x11, arg] crc → exec (.disableGroup arg crc) s = .next (replied [0xC2] s)) ∧
       (RequestReady s [0x03, 0x12, arg] crc → exec (.sealGroup arg crc) s = .next (replied [0xC2] s)) ∧
       (RequestReady s [0x03, 0x13, arg] crc → exec (.discard arg crc) s = .next (replied [0xC2] s)) ∧
       (RequestReady s [0x03, 0x14, arg] crc → exec (.clearFault arg crc) s = .next (replied [0xC2] s)) ∧
       (RequestReady s [0x03, 0x20, arg] crc → exec (.timerStart arg crc) s = .next (replied [0xC2] s)) ∧
       (RequestReady s [0x03, 0x21, arg] crc → exec (.timerStop arg crc) s = .next (replied [0xC2] s)) ∧
       (RequestReady s [0x03, 0x22, arg] crc → exec (.timerPreset arg crc) s = .next (replied [0xC2] s))) ∧
     (arg ≠ 0x00 →
       (RequestReady s [0x03, 0x01, arg] crc → exec (.activate arg crc) s = .next (replied [0xC2] s)) ∧
       (RequestReady s [0x03, 0x02, arg] crc → exec (.bypass arg crc) s = .next (replied [0xC2] s)) ∧
       (RequestReady s [0x03, 0x03, arg] crc → exec (.softReset arg crc) s = .next (replied [0xC2] s))) ∧
     (3 < arg.toNat % 16 ∨ 1 < arg.toNat / 16 →
       RequestReady s [0x03, 0x30, arg] crc → exec (.setCmt arg crc) s = .next (replied [0xC2] s)))

/-- A GET is always OK (R167, R168): the reply is the status, the object's bytes, as many as R172 gives, and the CRC over
both, sampled at the taking; nothing changes, but that a GET of CAPTURE_m sets *full* to no (R148). -/
def Obligations.GetReturnsTheObject : Prop :=
  (∀ (o : Obj) (s : State), (objectBytes o s).length = o.length) ∧
  (∀ (o : Obj) (crc : Byte) (s : State), o.isCapture = false → RequestReady s [0x01, o.number] crc →
    exec (.get o crc) s =
      .next (replied (0xC0 :: (objectBytes o s ++ [crc8 (0xC0 :: objectBytes o s)])) s)) ∧
  (∀ (m : Fin 4) (crc : Byte) (s : State), RequestReady s [0x01, BitVec.ofNat 8 (0x48 + m.val)] crc →
    exec (.getCapture m crc) s =
      .next (replied (0xC0 :: (objectBytes (.capture m) s ++ [crc8 (0xC0 :: objectBytes (.capture m) s)]))
        { s with monitors := s.monitors.set m { s.monitors.get m with
          capture := { (s.monitors.get m).capture with full := false } } }))

/-- The content of every object, byte by byte (R176 and the tables of Section 10.7): WINDOW_n, GROUP_CFG_g, GROUP_STAT_g,
FAULT_g, the configuration in force of TIMER_CFG_t and the items of TIMER_STAT_t (R117), MON_CFG_m, CAPTURE_m and
MON_COUNT_m (R141), CMT_CFG_g with its two levels (R151), ID (R174), DEVICE, QUEUE_STAT with the cause and the group of the
hold (R43), and EVENTS and EVENT_EN with each flag at its bit and bits 30 and 31 reading 0. -/
def Obligations.ObjectBytesAreTheLayouts : Prop :=
  ∀ s : State,
    (∀ (n : Fin 8) (w : Window), s.windows.get n = w → objectBytes (.window n) s =
      [yesNo w.enabled] ++ fourBytes w.base.toNat ++ fourBytes w.size ++
      [if w.kind = .staged then 0x00 else 0x01, BitVec.ofNat 8 w.group.val, yesNo w.forward,
       if w.policy = .stall then 0x00 else 0x01]) ∧
    (∀ (g : Fin 4) (x : GroupRec), s.group g = x →
      objectBytes (.groupCfg g) s =
        twoBytes x.cfg.quota ++ twoBytes x.cfg.stallTimeout ++
        [BitVec.ofNat 8 ((if x.cfg.sources.wrap then 1 else 0) + (if x.cfg.sources.peak then 2 else 0) +
          (if x.cfg.sources.hit then 4 else 0) + (if x.cfg.sources.sync then 8 else 0)),
         match x.cfg.syncEdge with
         | .rising => 0x01
         | .falling => 0x02
         | .both => 0x03,
         yesNo x.cfg.sealEmpty] ∧
      objectBytes (.groupStat g) s =
        ([match x.state with
          | .disabled => 0x00
          | .running => 0x01
          | .faulted => 0x02
          | .stopping => 0x03] : List Byte) ++
        twoBytes x.openEpoch.toNat ++ twoBytes x.lastCommitted.toNat ++ [yesNo x.hasSealed] ++
        twoBytes x.openCount ++ twoBytes x.sealedCount ++ [BitVec.ofNat 8 x.overruns] ∧
      objectBytes (.fault g) s =
        [yesNo x.fault.valid] ++ fourBytes x.fault.address.toNat ++ twoBytes x.fault.epoch.toNat ++
        [BitVec.ofNat 8 x.fault.dropped]) ∧
    (∀ (t : Fin 4) (x : Timer), s.timer t = x →
      objectBytes (.timerCfg t) s =
        [match x.mode with
         | .up => 0x00
         | .down => 0x01
         | .upDown => 0x02,
         yesNo x.oneShot,
         match x.source with
         | .tick _ => 0x00
         | .sync .rising => 0x11
         | .sync .falling => 0x12
         | .sync .both => 0x13,
         match x.source with
         | .tick k => BitVec.ofNat 8 k.val
         | .sync _ => 0x00] ++
        twoBytes x.period.toNat ++ twoBytes x.matchAt.toNat ∧
      objectBytes (.timerStat t) s =
        twoBytes x.counter.toNat ++
        [if x.direction = .up then 0x00 else 0x01, if x.running then 0x01 else 0x00,
         BitVec.ofNat 8 ((if x.periodNext.isSome then 1 else 0) + (if x.matchNext.isSome then 2 else 0))]) ∧
    (∀ (m : Fin 4) (x : Monitor), s.monitors.get m = x →
      objectBytes (.monCfg m) s =
        [yesNo x.cfg.enabled] ++ fourBytes x.cfg.low.toNat ++ fourBytes x.cfg.high.toNat ++
        [BitVec.ofNat 8 ((if x.cfg.streams.hp then 1 else 0) + (if x.cfg.streams.cp then 2 else 0) +
          (if x.cfg.streams.ce then 4 else 0)),
         BitVec.ofNat 8 ((if x.cfg.kinds.read then 1 else 0) + (if x.cfg.kinds.write then 2 else 0)),
         BitVec.ofNat 8 x.cfg.stamp.val] ∧
      objectBytes (.capture m) s =
        [yesNo x.capture.full,
         match x.capture.stream with
         | .hp => 0x00
         | .cp => 0x01
         | .ce => 0x02,
         if x.capture.kind = .read then 0x00 else 0x01] ++
        fourBytes x.capture.address.toNat ++ twoBytes x.capture.stampCounter.toNat ++
        twoBytes x.capture.stampEpoch.toNat ∧
      objectBytes (.monCount m) s = twoBytes x.hits ++ [BitVec.ofNat 8 x.overwrites]) ∧
    (∀ (g : Fin 4) (x : Line), s.lines.get g = x → objectBytes (.cmtCfg g) s =
      [match x.mode with
       | .level => 0x00
       | .pulse => 0x01
       | .toggle => 0x02
       | .busy => 0x03,
       if x.polarity = .activeHigh then 0x00 else 0x01, BitVec.ofNat 8 x.width,
       if x.software then 0x01 else 0x00, if x.logic then 0x01 else 0x00]) ∧
    objectBytes .ident s = [0x04, 0x28, 0x01, 0x01] ∧
    objectBytes .device s =
      ([match s.mode with
        | .bypass => 0x00
        | .active => 0x01
        | .leaving => 0x02] : List Byte) ++ twoBytes s.tick.divisor ∧
    (s.held = none → objectBytes .queueStat s = twoBytes s.queue.length ++ [0x00, 0x00]) ∧
    (∀ h : HeldWrite, s.held = some h → objectBytes .queueStat s =
      twoBytes s.queue.length ++
      [match h.cause with
       | .admission => 0x01
       | .disable => 0x02,
       BitVec.ofNat 8 h.cls.group.val]) ∧
    (∃ v : BitVec 32, objectBytes .events s = fourBytes v.toNat ∧
      (∀ f : EventFlag, v.getLsbD (flagPosition f) = s.events.isSet f) ∧
      v.getLsbD 30 = false ∧ v.getLsbD 31 = false) ∧
    (∃ v : BitVec 32, objectBytes .eventEn s = fourBytes v.toNat ∧
      (∀ f : EventFlag, v.getLsbD (flagPosition f) = s.events.enable.getLsbD f.bit) ∧
      v.getLsbD 30 = false ∧ v.getLsbD 31 = false)

/-! ## Event flags and DEVICE -/

/-- A PUT of EVENTS clears the flags whose bit is 1 and whose frame mark is no, and changes no mark and no other flag
(R160); a PUT of EVENT_EN replaces the thirty enables (R161); in both, the bits that name no flag are ignored. ATTN is
driven low exactly while some flag is set and enabled (R161). A PUT of DEVICE: a divisor of 0 or above 256 is refused; else
it is the divisor from the next tick on, the period in progress ends under the old one, and the mode byte is ignored
(R173). -/
def Obligations.DeviceAndEventPutsReplace : Prop :=
  (∀ (s : State) (v : BitVec 32) (crc : Byte), RequestReady s (0x02 :: 0x03 :: bytes32 v) crc →
    ∃ value : BitVec 30, exec (.putEvents v crc) s = .next (replied [0xC0] { s with
        events := { s.events with value := value } }) ∧
      ∀ k : Nat, k < 30 → value.getLsbD k =
        (s.events.value.getLsbD k && !(v.getLsbD k && !s.events.mark.getLsbD k))) ∧
  (∀ (s : State) (v : BitVec 32) (crc : Byte), RequestReady s (0x02 :: 0x04 :: bytes32 v) crc →
    exec (.putEventEn v crc) s = .next (replied [0xC0] { s with
      events := { s.events with enable := v.setWidth 30 } })) ∧
  (∀ s : State, s.attn = true ↔ ∃ k : Nat, k < 30 ∧ s.events.value.getLsbD k = true ∧
    s.events.enable.getLsbD k = true) ∧
  (∀ (s : State) (v : DeviceRaw) (crc : Byte),
     RequestReady s [0x02, 0x01, v.mode, v.divisor.extractLsb' 8 8, v.divisor.extractLsb' 0 8] crc →
     (v.divisor.toNat = 0 ∨ 256 < v.divisor.toNat → exec (.putDevice v crc) s = .next (replied [0xC2] s)) ∧
     (1 ≤ v.divisor.toNat → v.divisor.toNat ≤ 256 → exec (.putDevice v crc) s = .next (replied [0xC0] { s with
       tick := { s.tick with divisor := v.divisor.toNat } })))

/-! ## Configuration -/

/-- A PUT of WINDOW_n: the checks of R3 in their order, with the gating of R4; a PUT that passes them replaces all seven
fields at once (R1). -/
def Obligations.PutWindowChecksAndReplaces : Prop :=
  ∀ (s : State) (n : Fin 8) (v : WindowRaw) (crc : Byte) (bad busy overlap : Prop),
    RequestReady s (0x02 :: BitVec.ofNat 8 (0x10 + n.val) :: v.toBytes) crc → WindowsApart s →
    (bad ↔ v.base.toNat % 256 ≠ 0 ∨ v.size.toNat = 0 ∨ 65536 < v.size.toNat ∨
      2 ^ 32 < v.base.toNat + 256 * v.size.toNat ∨ 1 < v.kind.toNat ∨ 3 < v.group.toNat ∨ 1 < v.policy.toNat) →
    (busy ↔ ¬ (((s.windows.get n).enabled = false ∨ (s.windows.get n).kind = .locked ∨
        (s.group (s.windows.get n).group).state = .disabled) ∧
      (v.enabled.toNat = 0 ∨ v.kind.toNat = 1 ∨
        ∀ g : Fin 4, v.group.toNat = g.val → (s.group g).state = .disabled))) →
    (overlap ↔ v.enabled.toNat ≠ 0 ∧ ∃ k : Fin 8, k ≠ n ∧ (s.windows.get k).enabled = true ∧
      ∃ a : Nat, v.base.toNat ≤ a ∧ a < v.base.toNat + 256 * v.size.toNat ∧
        (s.windows.get k).base.toNat ≤ a ∧ a < (s.windows.get k).base.toNat + 256 * (s.windows.get k).size) →
    (bad → exec (.putWindow n v crc) s = .next (replied [0xC2] s)) ∧
    (¬ bad → busy → exec (.putWindow n v crc) s = .next (replied [0xC1] s)) ∧
    (¬ bad → ¬ busy → overlap → exec (.putWindow n v crc) s = .next (replied [0xC3] s)) ∧
    (¬ bad → ¬ busy → ¬ overlap → ∀ g : Fin 4, v.group.toNat = g.val →
      exec (.putWindow n v crc) s = .next (replied [0xC0] { s with
        windows := s.windows.set n
          { enabled := decide (v.enabled.toNat ≠ 0), base := v.base, size := v.size.toNat
            kind := if v.kind.toNat = 0 then .staged else .locked, group := g
            forward := decide (v.forward.toNat ≠ 0), policy := if v.policy.toNat = 0 then .stall else .refuse } }))

/-- A PUT of GROUP_CFG_g: the checks of R14 in their order; a PUT that passes them replaces all five fields at once. -/
def Obligations.PutGroupCfgChecksAndReplaces : Prop :=
  ∀ (s : State) (g : Fin 4) (v : GroupCfgRaw) (crc : Byte) (bad conflict : Prop),
    RequestReady s (0x02 :: BitVec.ofNat 8 (0x20 + g.val) :: v.toBytes) crc →
    (bad ↔ v.quota.toNat = 0 ∨ 512 < v.quota.toNat ∨ 4095 < v.timeout.toNat ∨ 15 < v.sources.toNat ∨
      v.edge.toNat = 0 ∨ 3 < v.edge.toNat) →
    (conflict ↔ (v.sources.getLsbD 3 = true ∧ ∃ e : Edge, (s.timer g).source = .sync e) ∨
      (v.sources.getLsbD 1 = true ∧ (s.timer g).mode ≠ .upDown)) →
    (bad → exec (.putGroupCfg g v crc) s = .next (replied [0xC2] s)) ∧
    (¬ bad → (s.group g).state ≠ .disabled → exec (.putGroupCfg g v crc) s = .next (replied [0xC1] s)) ∧
    (¬ bad → (s.group g).state = .disabled → conflict →
      exec (.putGroupCfg g v crc) s = .next (replied [0xC2] s)) ∧
    (¬ bad → (s.group g).state = .disabled → ¬ conflict →
      exec (.putGroupCfg g v crc) s = .next (replied [0xC0] { s with
        groups := s.groups.set g { s.group g with
          cfg :=
            { quota := v.quota.toNat, stallTimeout := v.timeout.toNat
              sources := ⟨v.sources.getLsbD 0, v.sources.getLsbD 1, v.sources.getLsbD 2, v.sources.getLsbD 3⟩
              syncEdge := if v.edge.toNat = 1 then .rising else if v.edge.toNat = 2 then .falling else .both
              sealEmpty := decide (v.sealEmpty.toNat ≠ 0) } } }))

/-- A PUT of TIMER_CFG_t: the checks of R112 in their order; its effect on a STOPPED timer, with the preset when it
changes the mode or the period (R113, R111), and on a RUNNING one, whose period and match wait in the pending slots
(R114). A *prescale count* is kept when the count source is kept; the one of a replaced source is not (log entry 9). -/
def Obligations.PutTimerCfgChecksAndConfigures : Prop :=
  ∀ (s : State) (t : Fin 4) (v : TimerCfgRaw) (crc : Byte) (x : Timer) (bad busy conflict : Prop)
    (mode : TimerMode) (source : CountSource),
    RequestReady s (0x02 :: BitVec.ofNat 8 (0x30 + t.val) :: v.toBytes) crc → s.timer t = x →
    (bad ↔ v.period.toNat = 0 ∨ 2 < v.mode.toNat ∨ (v.source = 0x00 ∧ 15 < v.k.toNat) ∨
      (v.source ≠ 0x00 ∧ v.source ≠ 0x11 ∧ v.source ≠ 0x12 ∧ v.source ≠ 0x13)) →
    (bad → exec (.putTimerCfg t v crc) s = .next (replied [0xC2] s)) ∧
    (¬ bad →
      mode = (if v.mode.toNat = 0 then .up else if v.mode.toNat = 1 then .down else .upDown) →
      source = (if v.source = 0x00 then .tick (Fin.ofNat 16 v.k.toNat) else if v.source = 0x11 then .sync .rising
        else if v.source = 0x12 then .sync .falling else .sync .both) →
      (busy ↔ x.running = true ∧ (mode ≠ x.mode ∨ source ≠ x.source)) →
      (conflict ↔ ((s.group t).cfg.sources.sync = true ∧ v.source ≠ 0x00) ∨
        ((s.group t).cfg.sources.peak = true ∧ mode ≠ .upDown)) →
      (busy → exec (.putTimerCfg t v crc) s = .next (replied [0xC1] s)) ∧
      (¬ busy → conflict → exec (.putTimerCfg t v crc) s = .next (replied [0xC2] s)) ∧
      (¬ busy → ¬ conflict → x.running = true →
        exec (.putTimerCfg t v crc) s = .next (replied [0xC0] { s with
          timers := s.timers.set t { x with
            oneShot := decide (v.oneShot.toNat ≠ 0)
            periodNext := if v.period = x.period ∧ x.periodNext = none then none else some v.period
            matchNext := if v.matchAt = x.matchAt ∧ x.matchNext = none then none else some v.matchAt } })) ∧
      (¬ busy → ¬ conflict → x.running = false →
        exec (.putTimerCfg t v crc) s = .next (replied [0xC0] { s with
          timers := s.timers.set t
            { mode := mode, oneShot := decide (v.oneShot.toNat ≠ 0), source := source
              period := v.period, matchAt := v.matchAt, running := false, periodNext := none, matchNext := none
              counter := if mode = x.mode ∧ v.period = x.period then x.counter
                else if mode = .down then v.period else 0
              direction := if mode = x.mode ∧ v.period = x.period then x.direction
                else if mode = .down then .down else .up
              prescale := if mode = x.mode ∧ v.period = x.period ∧ source = x.source then x.prescale else 0 } })))

/-- A PUT of MON_CFG_m (R142): refused when *low* or *high* is no word address, *low* is above *high*, or a code has no
meaning; else it replaces the six fields, clears both counts and empties the record, and changes no flag. -/
def Obligations.PutMonCfgChecksAndClears : Prop :=
  ∀ (s : State) (m : Fin 4) (v : MonCfgRaw) (crc : Byte) (bad : Prop),
    RequestReady s (0x02 :: BitVec.ofNat 8 (0x40 + m.val) :: v.toBytes) crc →
    (bad ↔ v.low.toNat % 4 ≠ 0 ∨ v.high.toNat % 4 ≠ 0 ∨ v.high.toNat < v.low.toNat ∨ 7 < v.streams.toNat ∨
      3 < v.kinds.toNat ∨ 3 < v.stamp.toNat) →
    (bad → exec (.putMonCfg m v crc) s = .next (replied [0xC2] s)) ∧
    (¬ bad → ∀ g : Fin 4, v.stamp.toNat = g.val →
      exec (.putMonCfg m v crc) s = .next (replied [0xC0] { s with
        monitors := s.monitors.set m
          { cfg :=
              { enabled := decide (v.enabled.toNat ≠ 0), low := v.low, high := v.high
                streams := ⟨v.streams.getLsbD 0, v.streams.getLsbD 1, v.streams.getLsbD 2⟩
                kinds := ⟨v.kinds.getLsbD 0, v.kinds.getLsbD 1⟩, stamp := g }
            hits := 0, overwrites := 0, capture := ⟨false, .hp, .read, 0, 0, 0⟩ } }))

/-- A PUT of CMT_CFG_g (R157): refused when the width is 0 or a code has no meaning; else the three fields replace the
line's configuration, and a change of mode sets the *logic level* and stops the countdown. The two level bytes are
ignored (R172). That with the mode unchanged a running countdown keeps its count, so that a PUT of a new width and a completion
leave a countdown that depends on their order, is the model's choice between two sentences of R157 (log entry 25). The pin
shows the *logic level* through the polarity (R152). SET_CMT (R153, R175): the *software level*
becomes the level carried, and in LEVEL mode the *logic level* too; nothing else moves. -/
def Obligations.CommitLineRequestsSetTheLine : Prop :=
  (∀ (s : State) (g : Fin 4) (v : CmtCfgRaw) (crc : Byte) (mode : LineMode) (bad : Prop),
    RequestReady s (0x02 :: BitVec.ofNat 8 (0x50 + g.val) :: v.toBytes) crc →
    (bad ↔ v.width.toNat = 0 ∨ 3 < v.mode.toNat ∨ 1 < v.polarity.toNat) →
    mode = (if v.mode.toNat = 0 then .level else if v.mode.toNat = 1 then .pulse
      else if v.mode.toNat = 2 then .toggle else .busy) →
    (bad → exec (.putCmtCfg g v crc) s = .next (replied [0xC2] s)) ∧
    (¬ bad → exec (.putCmtCfg g v crc) s = .next (replied [0xC0] { s with
      lines := s.lines.set g { s.lines.get g with
        mode := mode
        polarity := if v.polarity.toNat = 0 then .activeHigh else .activeLow
        width := v.width.toNat
        logic := if mode = (s.lines.get g).mode then (s.lines.get g).logic
          else if mode = .level then (s.lines.get g).software else false
        countdown := if mode = (s.lines.get g).mode then (s.lines.get g).countdown else 0 } }))) ∧
  (∀ x : Line, (x.polarity = .activeHigh → x.pin = x.logic) ∧ (x.polarity = .activeLow → x.pin = !x.logic)) ∧
  (∀ (s : State) (arg crc : Byte) (g : Fin 4), RequestReady s [0x03, 0x30, arg] crc →
     arg.toNat % 16 = g.val → arg.toNat / 16 ≤ 1 →
     exec (.setCmt arg crc) s = .next (replied [0xC0] { s with
       lines := s.lines.set g { s.lines.get g with
         software := decide (arg.toNat / 16 = 1)
         logic := if (s.lines.get g).mode = .level then decide (arg.toNat / 16 = 1) else (s.lines.get g).logic } }))

/-! ## Device mode and group actions -/

/-- ACTIVATE (R178) is refused with WRONG_MODE outside BYPASS; in BYPASS the mode becomes ACTIVE and nothing else changes.
BYPASS (R179) is refused with WRONG_MODE outside ACTIVE; with every group DISABLED the mode becomes BYPASS and
BYPASS_REACHED is set; otherwise the groups wind down, and the part ends in BYPASS with the flag set when all of them are
DISABLED, else in LEAVING with each STOPPING or DISABLED. Under CHOLD the final seals join the commit request queue in
group number order. With no start left undone before, as in every reached state, the whole next state is stated. A RUNNING or
FAULTED group without entries or sealed epoch becomes DISABLED, and every other one STOPPING (R18); each of these that has no
sealed epoch makes its final seal (R57, R47), in group number order; a write held for a group that becomes DISABLED is
released (R36), and one held for a group that becomes STOPPING is converted and keeps its timer (R34); every entry keeps its
place, group, address, data and mask. While CHOLD is asserted or a drain is in progress the sealed groups wait behind the
others; else the drain of the first of them starts at once (R63) and the rest wait. -/
def Obligations.ModeActionsMoveTheDevice : Prop :=
  (∀ (s : State) (crc : Byte), RequestReady s [0x03, 0x01, 0x00] crc →
     (s.mode ≠ .bypass → exec (.activate 0x00 crc) s = .next (replied [0xC5] s)) ∧
     (s.mode = .bypass → exec (.activate 0x00 crc) s = .next (replied [0xC0] { s with mode := .active }))) ∧
  (∀ (s : State) (crc : Byte), RequestReady s [0x03, 0x02, 0x00] crc →
     (s.mode ≠ .active → exec (.bypass 0x00 crc) s = .next (replied [0xC5] s)) ∧
     (s.mode = .active → (∀ g : Fin 4, (s.group g).state = .disabled) →
       exec (.bypass 0x00 crc) s = .next (replied [0xC0] (({ s with mode := .bypass } : State).cause .bypassReached))) ∧
     (s.mode = .active → (∀ g : Fin 4, (s.group g).state = .disabled ∨ (s.group g).state = .stopping) →
       (∃ g : Fin 4, (s.group g).state = .stopping) →
       exec (.bypass 0x00 crc) s = .next (replied [0xC0] { s with mode := .leaving })) ∧
     (s.mode = .active → StagingSound s → (∃ g : Fin 4, (s.group g).state ≠ .disabled) →
       ∃ t : State, exec (.bypass 0x00 crc) s = .next t ∧ t.mgmt = ⟨.reply, [], none, [0xC0], some 0⟩ ∧
         t.windows = s.windows ∧ t.timers = s.timers ∧ t.issue = s.issue ∧
         (∀ g : Fin 4, (t.group g).cfg = (s.group g).cfg ∧ (t.group g).fault = (s.group g).fault) ∧
         (((∀ g : Fin 4, (t.group g).state = .disabled) ∧ t.mode = .bypass ∧
             t.events.isSet .bypassReached = true) ∨
           ((∀ g : Fin 4, (t.group g).state = .disabled ∨ (t.group g).state = .stopping) ∧
             (∃ g : Fin 4, (t.group g).state = .stopping) ∧ t.mode = .leaving)) ∧
         (s.chold = true → t.commitReq = s.commitReq ++ four.filter (fun g =>
           ((s.group g).state == .running || (s.group g).state == .faulted) && !(s.group g).hasSealed &&
             decide (0 < (s.group g).openCount))))) ∧
  (∀ (s : State) (crc : Byte) (sealing : List (Fin 4)), RequestReady s [0x03, 0x02, 0x00] crc → s.mode = .active →
     StagingSound s → NoStartLeft s → (∃ g : Fin 4, (s.group g).state ≠ .disabled) →
     sealing = four.filter (fun g => entersStopping s g && !(s.group g).hasSealed) →
     ∃ t : State, exec (.bypass 0x00 crc) s = .next (replied [0xC0] t) ∧
       t = { s with
         mode := if ∀ g : Fin 4, (s.group g).state = .disabled ∨ endsAtOnce s g = true then .bypass else .leaving
         groups := t.groups
         queue := s.queue.map (fun e =>
           if e.group ∈ sealing ∧ e.role = .opened then { e with role := .sealed, issue := .notIssued } else e)
         commitReq := t.commitReq
         engine := t.engine
         hp := t.hp
         events := t.events
         lines := t.lines } ∧
       (∀ g ∈ sealing, t.group g = { s.group g with
           state := .stopping
           hasSealed := true
           sealedCount := (s.group g).openCount
           openCount := 0
           openEpoch := (s.group g).openEpoch + 1 } ∧
         t.lines.get g = lineSealed (s.lines.get g)) ∧
       (∀ g : Fin 4, g ∉ sealing → t.group g = { s.group g with
           state := if endsAtOnce s g then .disabled else if entersStopping s g then .stopping else (s.group g).state } ∧
         t.lines.get g = s.lines.get g) ∧
       (s.chold = true ∨ s.engine.state ≠ .idle ∨ sealing = [] →
         t.commitReq = s.commitReq ++ sealing ∧ t.engine = s.engine) ∧
       (∀ (g : Fin 4) (rest : List (Fin 4)), s.chold = false → s.engine.state = .idle → sealing = g :: rest →
         t.commitReq = rest ∧ t.engine = { s.engine with state := .draining g, retry := [] }) ∧
       ((∀ h : HeldWrite, s.held = some h →
           endsAtOnce s h.cls.group = false ∧ entersStopping s h.cls.group = false) → t.hp = s.hp) ∧
       (∀ h : HeldWrite, s.held = some h → endsAtOnce s h.cls.group = true →
         t.hp = s.hp.setHead (.head h.cls .passThrough)) ∧
       (∀ h : HeldWrite, s.held = some h → entersStopping s h.cls.group = true →
         t.hp = s.hp.setHead (.head h.cls (.held .disable h.timer))) ∧
       (∀ (f : EventFlag) (caused : Bool),
         (caused = match f with
           | .sealed g => sealing.contains g
           | .bypassReached => t.mode == .bypass
           | _ => false) →
         t.events.isSet f = (s.events.isSet f || caused) ∧
         t.events.mark.getLsbD f.bit = (s.events.mark.getLsbD f.bit || caused)) ∧
       t.events.enable = s.events.enable)

/-- ENABLE_GROUP (R17): refused with WRONG_MODE outside ACTIVE and with WRONG_STATE when the group is not DISABLED; else
the group becomes FAULTED when its fault record is valid and RUNNING when it is not, and nothing else changes when no
request waits at a port head to be passed through. The requests that wait there, one at each port, are re-examined (R12).
Consumer Port: a write inside a STAGED window of the group is answered ERROR LOCKED. Host Port: a write there is offered to
admission, which takes it, refuses it with ERROR FULL or holds it as its window's policy gives; a read there is forwarded
when its window forwards. A request that now straddles windows is answered ERROR SPAN, a consumer read apart. Any other
goes on: one outside the windows, in a LOCKED window, or in a STAGED window of another group. -/
def Obligations.EnableGroupStartsAndReexamines : Prop :=
  (∀ (s : State) (g : Fin 4) (crc : Byte), RequestReady s [0x03, 0x10, BitVec.ofNat 8 g.val] crc →
     (s.mode ≠ .active → exec (.enableGroup (BitVec.ofNat 8 g.val) crc) s = .next (replied [0xC5] s)) ∧
     (s.mode = .active → (s.group g).state ≠ .disabled →
       exec (.enableGroup (BitVec.ofNat 8 g.val) crc) s = .next (replied [0xC4] s)) ∧
     (s.mode = .active → (s.group g).state = .disabled →
       (∀ sl ∈ s.hp.head?.toList, sl.phase.passesThrough = false) →
       (∀ sl ∈ s.cp.head?.toList, sl.phase.passesThrough = true → sl.req.kind = .read) →
       exec (.enableGroup (BitVec.ofNat 8 g.val) crc) s = .next (replied [0xC0] { s with
         groups := s.groups.set g { s.group g with
           state := if (s.group g).fault.valid then .faulted else .running } }))) ∧
  (∀ (s s1 : State) (g : Fin 4) (crc : Byte),
     RequestReady s [0x03, 0x10, BitVec.ofNat 8 g.val] crc → s.mode = .active → (s.group g).state = .disabled →
     WindowsApart s →
     (∀ sl ∈ s.hp.head?.toList, FormSound sl.req) → (∀ sl ∈ s.cp.head?.toList, FormSound sl.req) →
     s1 = { s with groups := s.groups.set g { s.group g with
       state := if (s.group g).fault.valid then .faulted else .running } } →
     (∃ t u : State, HostReexamined g s1 t ∧ ConsumerReexamined g t u) ∧
     ∀ t u : State, HostReexamined g s1 t → ConsumerReexamined g t u →
       exec (.enableGroup (BitVec.ofNat 8 g.val) crc) s = .next (replied [0xC0] u))

/-- DISABLE_GROUP (R18): refused with WRONG_STATE for a STOPPING or DISABLED group; a group without entries or sealed epoch
becomes DISABLED at once, and a write held for it is released as pass-through (R36); any other becomes STOPPING, a write
held for its admission waits for DISABLED and keeps its timer (R34), and an open epoch with entries is sealed at once when
there is no sealed epoch (R57), with the start test that the seal brings (R63). A write held for another group stays as it
is. -/
def Obligations.DisableGroupStopsTheGroup : Prop :=
  ∀ (s stopped : State) (g : Fin 4) (crc : Byte), RequestReady s [0x03, 0x11, BitVec.ofNat 8 g.val] crc →
    stopped = holdConverted g { s with groups := s.groups.set g { s.group g with state := .stopping } } →
    ((s.group g).state = .disabled ∨ (s.group g).state = .stopping →
      exec (.disableGroup (BitVec.ofNat 8 g.val) crc) s = .next (replied [0xC4] s)) ∧
    ((s.group g).state = .running ∨ (s.group g).state = .faulted →
      ((s.group g).openCount = 0 → (s.group g).sealedCount = 0 → (s.group g).hasSealed = false →
        exec (.disableGroup (BitVec.ofNat 8 g.val) crc) s = .next (replied [0xC0] (disabledAt g s)) ∧
        (s.mode ≠ .leaving → (∀ h : HeldWrite, s.held = some h → h.cls.group ≠ g) →
          disabledAt g s = { s with groups := s.groups.set g { s.group g with state := .disabled } }) ∧
        (∀ h : HeldWrite, s.mode ≠ .leaving → s.held = some h → h.cls.group = g →
          disabledAt g s = ({ s with
            groups := s.groups.set g { s.group g with state := .disabled } } : State).setHead .hp
              (.head h.cls .passThrough))) ∧
      ((s.group g).hasSealed = true →
        exec (.disableGroup (BitVec.ofNat 8 g.val) crc) s = .next (replied [0xC0] stopped)) ∧
      ((s.group g).hasSealed = false → 0 < (s.group g).openCount →
        (∀ u : State, StartTest (sealedAt g stopped) u →
          exec (.disableGroup (BitVec.ofNat 8 g.val) crc) s = .next (replied [0xC0] u)) ∧
        (s.chold = true ∨ s.engine.state ≠ .idle →
          exec (.disableGroup (BitVec.ofNat 8 g.val) crc) s = .next (replied [0xC0] (sealedAt g stopped))) ∧
        (s.chold = false → s.engine.state = .idle → s.commitReq = [] →
          s.queue.any (fun e => e.group == g && e.role == .opened) = true →
          exec (.disableGroup (BitVec.ofNat 8 g.val) crc) s = .next (replied [0xC0] { sealedAt g stopped with
            commitReq := [], engine := { s.engine with state := .draining g, retry := [] } }))))

/-- SEAL (R55): refused with WRONG_STATE for a STOPPING or DISABLED group and with BUSY when it has a sealed epoch, with
nothing changed; else the open epoch is sealed, empty or not, whatever the seal sources, with the effects of R47: its OPEN
entries become SEALED in place, not issued, the counts and the epoch number move, the group joins the commit request
queue, SEALED_Gg is caused and a BUSY line becomes active; then the start test is made (R63). With the engine IDLE, CHOLD
not asserted and no group ahead, the drain of an epoch with entries starts at once, and an empty epoch completes at its
start, without a memory access (R48). -/
def Obligations.SealActionSealsTheOpenEpoch : Prop :=
  ∀ (s sealedState : State) (g : Fin 4) (crc : Byte), RequestReady s [0x03, 0x12, BitVec.ofNat 8 g.val] crc →
    ((s.group g).state = .disabled ∨ (s.group g).state = .stopping →
      exec (.sealGroup (BitVec.ofNat 8 g.val) crc) s = .next (replied [0xC4] s)) ∧
    ((s.group g).state = .running ∨ (s.group g).state = .faulted → (s.group g).hasSealed = true →
      exec (.sealGroup (BitVec.ofNat 8 g.val) crc) s = .next (replied [0xC1] s)) ∧
    ((s.group g).state = .running ∨ (s.group g).state = .faulted → (s.group g).hasSealed = false →
      sealedState = { s with
        queue := s.queue.map (fun e =>
          if e.group = g ∧ e.role = .opened then { e with role := .sealed, issue := .notIssued } else e)
        groups := s.groups.set g { s.group g with
          hasSealed := true
          sealedCount := (s.group g).openCount
          openCount := 0
          openEpoch := (s.group g).openEpoch + 1 }
        commitReq := s.commitReq ++ [g]
        events := s.events.cause (.sealed g)
        lines := s.lines.set g (if (s.lines.get g).mode = .busy then { s.lines.get g with logic := true }
          else s.lines.get g) } →
      (∀ u : State, StartTest sealedState u →
        exec (.sealGroup (BitVec.ofNat 8 g.val) crc) s = .next (replied [0xC0] u)) ∧
      (s.chold = true ∨ s.engine.state ≠ .idle →
        exec (.sealGroup (BitVec.ofNat 8 g.val) crc) s = .next (replied [0xC0] sealedState)) ∧
      (s.chold = false → s.engine.state = .idle → s.commitReq = [] →
        (s.queue.any (fun e => e.group == g && e.role == .opened) = true →
          exec (.sealGroup (BitVec.ofNat 8 g.val) crc) s = .next (replied [0xC0] { sealedState with
            commitReq := [], engine := { s.engine with state := .draining g, retry := [] } })) ∧
        (s.queue.any (fun e => e.group == g) = false → writeOutstanding s.issue g = false →
          exec (.sealGroup (BitVec.ofNat 8 g.val) crc) s = .next (replied [0xC0] { sealedState with
            commitReq := []
            engine := { s.engine with state := .idle, retry := [] }
            groups := s.groups.set g { s.group g with
              hasSealed := false
              sealedCount := (s.group g).openCount
              openCount := 0
              openEpoch := (s.group g).openEpoch + 1
              lastCommitted := (s.group g).openEpoch }
            events := sealedState.events.cause (.committed g)
            lines := s.lines.set g (lineCompleted (sealedState.lines.get g)) }))))

/-- DISCARD (R41): refused with BUSY for a STOPPING group and with WRONG_STATE for a DISABLED one; else every OPEN entry of
the group leaves the queue, the others close up in order, the *open count* becomes 0, and a held admission is retried
(R31). CLEAR_FAULT (R19): taken in every state; the record is cleared and a FAULTED group becomes RUNNING. -/
def Obligations.DiscardAndClearFault : Prop :=
  (∀ (s : State) (g : Fin 4) (crc : Byte), RequestReady s [0x03, 0x13, BitVec.ofNat 8 g.val] crc →
    ((s.group g).state = .stopping → exec (.discard (BitVec.ofNat 8 g.val) crc) s = .next (replied [0xC1] s)) ∧
    ((s.group g).state = .disabled → exec (.discard (BitVec.ofNat 8 g.val) crc) s = .next (replied [0xC4] s)) ∧
    ((s.group g).state = .running ∨ (s.group g).state = .faulted →
      exec (.discard (BitVec.ofNat 8 g.val) crc) s = .next (replied [0xC0] (retryAdmission { s with
        queue := s.queue.filter (fun e => !(e.group == g && e.role == .opened))
        groups := s.groups.set g { s.group g with openCount := 0 } })))) ∧
  (∀ (s : State) (g : Fin 4) (crc : Byte), RequestReady s [0x03, 0x14, BitVec.ofNat 8 g.val] crc →
    exec (.clearFault (BitVec.ofNat 8 g.val) crc) s = .next (replied [0xC0] { s with
      groups := s.groups.set g { s.group g with
        fault := ⟨false, 0, 0, 0⟩
        state := if (s.group g).state = .faulted then .running else (s.group g).state } }))

/-- TIMER_START (R109), TIMER_STOP (R110) and TIMER_PRESET (R111): the run state, the counter, the *direction* and the
*prescale count* become what the rules give, pending values stay pending, and no other part of the state moves. -/
def Obligations.TimerActionsStartStopPreset : Prop :=
  (∀ (s : State) (t : Fin 4) (crc : Byte), RequestReady s [0x03, 0x20, BitVec.ofNat 8 t.val] crc →
    ((s.timer t).running = true → exec (.timerStart (BitVec.ofNat 8 t.val) crc) s = .next (replied [0xC4] s)) ∧
    ((s.timer t).running = false → exec (.timerStart (BitVec.ofNat 8 t.val) crc) s = .next (replied [0xC0] { s with
      timers := s.timers.set t { s.timer t with running := true, prescale := 0 } }))) ∧
  (∀ (s : State) (t : Fin 4) (crc : Byte), RequestReady s [0x03, 0x21, BitVec.ofNat 8 t.val] crc →
    ((s.timer t).running = false → exec (.timerStop (BitVec.ofNat 8 t.val) crc) s = .next (replied [0xC4] s)) ∧
    ((s.timer t).running = true → exec (.timerStop (BitVec.ofNat 8 t.val) crc) s = .next (replied [0xC0] { s with
      timers := s.timers.set t { s.timer t with running := false } }))) ∧
  (∀ (s : State) (t : Fin 4) (crc : Byte), RequestReady s [0x03, 0x22, BitVec.ofNat 8 t.val] crc →
    exec (.timerPreset (BitVec.ofNat 8 t.val) crc) s = .next (replied [0xC0] { s with
      timers := s.timers.set t { s.timer t with
        counter := if (s.timer t).mode = .down then (s.timer t).period else 0
        direction := if (s.timer t).mode = .down then .down else .up
        prescale := 0 } }))

/-! ## Laws that every step keeps -/

/-- At State.reset every law of Safety.lean holds: the limits, the epoch numbers, the clocked blocks, the quotas, the
table, the ports, the engine, the fence, and what RSTn holds. -/
def Obligations.ResetIsSound : Prop :=
  WithinLimits State.reset ∧ WriteCountAgrees State.reset ∧ EpochsAgree State.reset ∧ TimersSound State.reset ∧
  PairingSound State.reset ∧ LinesSound State.reset ∧ TickSound State.reset ∧ WithinQuota State.reset ∧
  EntriesSound State.reset ∧ TableSound State.reset ∧ PortsSound State.reset ∧ FenceSound State.reset ∧
  NoStartLeft State.reset ∧ HeldInReset State.reset

/-- The memory issue list never holds more than 8 records, a master port never more than four requests, and the *commit
write count* is always the number of commit writes in the list, orphans included, and at most 4 (R62, R66, R123, R130). -/
def Obligations.StepsKeepTheLimits : Prop :=
  ∀ s s' : State, WithinLimits s ∧ WriteCountAgrees s → step s = .next s' → WithinLimits s' ∧ WriteCountAgrees s'

/-- In every state, a group's open epoch number is its last committed epoch number plus 1, plus 1 more while it has a
sealed epoch, modulo 65536 (R46). -/
def Obligations.StepsKeepTheEpochs : Prop :=
  ∀ s s' : State, EpochsAgree s → step s = .next s' → EpochsAgree s'

/-- The clocked blocks stay within their bounds: every timer's items relate as R101 gives, no sync input is both the
count source of a timer and a seal source of its group, no group has PEAK without UPDOWN (R112), a countdown runs only on
an active line in PULSE mode (R154), and the generator counts fewer edges than its period has (R100). -/
def Obligations.StepsKeepTheClockedBlocks : Prop :=
  ∀ s s' : State, TimersSound s ∧ PairingSound s ∧ LinesSound s ∧ TickSound s → step s = .next s' →
    TimersSound s' ∧ PairingSound s' ∧ LinesSound s' ∧ TickSound s'

/-- The staging queue stays within its 512 entries and each group within its *quota* (R13, R22), each group's counts are
its numbers of OPEN and SEALED entries, a DISABLED group holds none (R15, R16), every lane outside an entry's non-empty
mask is 0x00 (R20), a write is held only while its group admits or stops (R34, R35), and the group states fit the device
mode (R177, R180). -/
def Obligations.StepsKeepTheQuotas : Prop :=
  ∀ s s' : State, StagingSound s ∧ WithinQuota s ∧ EntriesSound s → step s = .next s' →
    StagingSound s' ∧ WithinQuota s' ∧ EntriesSound s'

/-- The window table and the staging path stay in agreement: enabled windows never overlap (R3), every staged word and
every word of a held write lies in an enabled STAGED window of its group, and no write that waits to be passed through
touches the windows of a group that is not DISABLED (R4, R11, R12). The law rests on the order of the heads at both ports
(R124, R125) and keeps it. -/
def Obligations.StepsKeepTheTable : Prop :=
  ∀ s s' : State, TableSound s → step s = .next s' → TableSound s'

/-- The master ports stay in order: at most one request of a port is being processed and it is the oldest not yet issued
or answered, slot identifiers are distinct, and the memory requests a port waits for are exactly its records in the issue
list, in the same order, orphans apart (R123, R124, R130). -/
def Obligations.StepsKeepThePorts : Prop :=
  ∀ s s' : State, PortsSound s → step s = .next s' → PortsSound s'

/-- The engine, the staging queue and the issue list stay in agreement: no two entries share group, role and word address
(R23); a group has a sealed epoch exactly when it waits in the commit request queue, once, or is being drained, and never
both (R61); an issued entry has its one write outstanding, a reissued one waits in the *retry list*, in queue order, or has
its second write outstanding, and nothing else is outstanding or listed (R39, R62, R66). -/
def Obligations.StepsKeepTheEngine : Prop :=
  ∀ s s' : State, StagingSound s ∧ EngineSound s → step s = .next s' → StagingSound s' ∧ EngineSound s'

/-- The consumer fence over whole runs (R94, R97): behind an outstanding commit write of group g the issue list never holds
a consumer read of a word of g's STAGED windows, so each such read sees memory before every write of the drain or after
the drain. -/
def Obligations.StepsKeepTheFence : Prop :=
  ∀ s s' : State, FenceSound s → step s = .next s' → FenceSound s'

/-- The start test is made at every event that can fulfil it (R63): while the engine is IDLE and CHOLD is not asserted, no
group waits in the commit request queue; and while RSTn is asserted the part holds no request, no entry and no record, no
group is enabled, no timer runs, and no frame is taken (R139, R170, R182). -/
def Obligations.StepsLeaveNoStartAndStayInReset : Prop :=
  ∀ s s' : State, NoStartLeft s ∧ HeldInReset s → step s = .next s' → NoStartLeft s' ∧ HeldInReset s'
end

