-- ==== Sys2Proof/Laws/State.lean ====
section
/-! SUPPORT. The tables of four and eight things, and one lemma per field for each record update of the state. -/

namespace Sys2Proof

/-! ## Four and Eight -/

@[simp] theorem Four.get_set {α : Type} (v : Four α) (i j : Fin 4) (x : α) :
    (v.set i x).get j = if j = i then x else v.get j := by
  fin_cases i <;> fin_cases j <;> rfl

@[simp] theorem Four.get_modify {α : Type} (v : Four α) (i j : Fin 4) (f : α → α) :
    (v.modify i f).get j = if j = i then f (v.get i) else v.get j := by
  simp [Four.modify]

@[simp] theorem Four.get_map {α β : Type} (f : α → β) (v : Four α) (i : Fin 4) : (v.map f).get i = f (v.get i) := by
  fin_cases i <;> rfl

@[simp] theorem Four.get_all {α : Type} (x : α) (i : Fin 4) : (Four.all x).get i = x := by fin_cases i <;> rfl

theorem Four.modify_eq_set {α : Type} (v : Four α) (i : Fin 4) (f : α → α) : v.modify i f = v.set i (f (v.get i)) := rfl

@[simp] theorem Four.set_get_self {α : Type} (v : Four α) (i : Fin 4) : v.set i (v.get i) = v := by
  fin_cases i <;> rfl

@[simp] theorem Four.set_set {α : Type} (v : Four α) (i : Fin 4) (x y : α) : (v.set i x).set i y = v.set i y := by
  fin_cases i <;> rfl

@[simp] theorem Four.modify_modify {α : Type} (v : Four α) (i : Fin 4) (f g : α → α) :
    (v.modify i f).modify i g = v.modify i (fun x => g (f x)) := by
  fin_cases i <;> rfl

/-- Two tables with the same four things are the same. -/
theorem Four.ext_get {α : Type} {v w : Four α} (h : ∀ i, v.get i = w.get i) : v = w := by
  have h0 := h 0; have h1 := h 1; have h2 := h 2; have h3 := h 3
  cases v; cases w; simp_all [Four.get]

@[simp] theorem mem_four (i : Fin 4) : i ∈ four := by fin_cases i <;> decide

@[simp] theorem Eight.get_set {α : Type} (v : Eight α) (i j : Fin 8) (x : α) :
    (v.set i x).get j = if j = i then x else v.get j := by
  fin_cases i <;> fin_cases j <;> rfl

@[simp] theorem Eight.get_all {α : Type} (x : α) (i : Fin 8) : (Eight.all x).get i = x := by fin_cases i <;> rfl

@[simp] theorem mem_eight (i : Fin 8) : i ∈ eight := by fin_cases i <;> decide

end Sys2Proof

namespace Sys2Proof.Machine

/-! ## Reading a table of the state -/

@[simp] theorem State.group_modGroup (g h : Fin 4) (f : GroupRec → GroupRec) (s : State) :
    (s.modGroup g f).group h = if h = g then f (s.group g) else s.group h := by
  simp [State.group, State.modGroup]

@[simp] theorem State.timer_modTimer (t u : Fin 4) (f : Timer → Timer) (s : State) :
    (s.modTimer t f).timer u = if u = t then f (s.timer t) else s.timer u := by
  simp [State.timer, State.modTimer]

theorem State.group_congr {s t : State} (h : s.groups = t.groups) (g : Fin 4) : s.group g = t.group g := by
  simp [State.group, h]

theorem State.timer_congr {s t : State} (h : s.timers = t.timers) (i : Fin 4) : s.timer i = t.timer i := by
  simp [State.timer, h]

theorem State.held_congr {s t : State} (h : s.hp.slots = t.hp.slots) : s.held = t.held := by
  simp [State.held, Port.head?, h]

/-! ## One group, one timer, one line -/

@[simp] theorem State.modGroup_inReset (g : Fin 4) (f : GroupRec → GroupRec) (s : State) : (s.modGroup g f).inReset = s.inReset := rfl
@[simp] theorem State.modGroup_mode (g : Fin 4) (f : GroupRec → GroupRec) (s : State) : (s.modGroup g f).mode = s.mode := rfl
@[simp] theorem State.modGroup_chold (g : Fin 4) (f : GroupRec → GroupRec) (s : State) : (s.modGroup g f).chold = s.chold := rfl
@[simp] theorem State.modGroup_syncLine (g : Fin 4) (f : GroupRec → GroupRec) (s : State) : (s.modGroup g f).syncLine = s.syncLine := rfl
@[simp] theorem State.modGroup_syncRef (g : Fin 4) (f : GroupRec → GroupRec) (s : State) : (s.modGroup g f).syncRef = s.syncRef := rfl
@[simp] theorem State.modGroup_tick (g : Fin 4) (f : GroupRec → GroupRec) (s : State) : (s.modGroup g f).tick = s.tick := rfl
@[simp] theorem State.modGroup_windows (g : Fin 4) (f : GroupRec → GroupRec) (s : State) : (s.modGroup g f).windows = s.windows := rfl
@[simp] theorem State.modGroup_groups (g : Fin 4) (f : GroupRec → GroupRec) (s : State) : (s.modGroup g f).groups = s.groups.modify g f := rfl
@[simp] theorem State.modGroup_queue (g : Fin 4) (f : GroupRec → GroupRec) (s : State) : (s.modGroup g f).queue = s.queue := rfl
@[simp] theorem State.modGroup_commitReq (g : Fin 4) (f : GroupRec → GroupRec) (s : State) : (s.modGroup g f).commitReq = s.commitReq := rfl
@[simp] theorem State.modGroup_engine (g : Fin 4) (f : GroupRec → GroupRec) (s : State) : (s.modGroup g f).engine = s.engine := rfl
@[simp] theorem State.modGroup_hp (g : Fin 4) (f : GroupRec → GroupRec) (s : State) : (s.modGroup g f).hp = s.hp := rfl
@[simp] theorem State.modGroup_cp (g : Fin 4) (f : GroupRec → GroupRec) (s : State) : (s.modGroup g f).cp = s.cp := rfl
@[simp] theorem State.modGroup_issue (g : Fin 4) (f : GroupRec → GroupRec) (s : State) : (s.modGroup g f).issue = s.issue := rfl
@[simp] theorem State.modGroup_pointer (g : Fin 4) (f : GroupRec → GroupRec) (s : State) : (s.modGroup g f).pointer = s.pointer := rfl
@[simp] theorem State.modGroup_timers (g : Fin 4) (f : GroupRec → GroupRec) (s : State) : (s.modGroup g f).timers = s.timers := rfl
@[simp] theorem State.modGroup_monitors (g : Fin 4) (f : GroupRec → GroupRec) (s : State) : (s.modGroup g f).monitors = s.monitors := rfl
@[simp] theorem State.modGroup_lines (g : Fin 4) (f : GroupRec → GroupRec) (s : State) : (s.modGroup g f).lines = s.lines := rfl
@[simp] theorem State.modGroup_events (g : Fin 4) (f : GroupRec → GroupRec) (s : State) : (s.modGroup g f).events = s.events := rfl
@[simp] theorem State.modGroup_mgmt (g : Fin 4) (f : GroupRec → GroupRec) (s : State) : (s.modGroup g f).mgmt = s.mgmt := rfl
@[simp] theorem State.modGroup_freeIndex (g : Fin 4) (f : GroupRec → GroupRec) (s : State) : (s.modGroup g f).freeIndex = s.freeIndex := rfl
@[simp] theorem State.modGroup_pending (g : Fin 4) (f : GroupRec → GroupRec) (s : State) : (s.modGroup g f).pending = s.pending := rfl
@[simp] theorem State.modTimer_inReset (t : Fin 4) (f : Timer → Timer) (s : State) : (s.modTimer t f).inReset = s.inReset := rfl
@[simp] theorem State.modTimer_mode (t : Fin 4) (f : Timer → Timer) (s : State) : (s.modTimer t f).mode = s.mode := rfl
@[simp] theorem State.modTimer_chold (t : Fin 4) (f : Timer → Timer) (s : State) : (s.modTimer t f).chold = s.chold := rfl
@[simp] theorem State.modTimer_syncLine (t : Fin 4) (f : Timer → Timer) (s : State) : (s.modTimer t f).syncLine = s.syncLine := rfl
@[simp] theorem State.modTimer_syncRef (t : Fin 4) (f : Timer → Timer) (s : State) : (s.modTimer t f).syncRef = s.syncRef := rfl
@[simp] theorem State.modTimer_tick (t : Fin 4) (f : Timer → Timer) (s : State) : (s.modTimer t f).tick = s.tick := rfl
@[simp] theorem State.modTimer_windows (t : Fin 4) (f : Timer → Timer) (s : State) : (s.modTimer t f).windows = s.windows := rfl
@[simp] theorem State.modTimer_groups (t : Fin 4) (f : Timer → Timer) (s : State) : (s.modTimer t f).groups = s.groups := rfl
@[simp] theorem State.modTimer_queue (t : Fin 4) (f : Timer → Timer) (s : State) : (s.modTimer t f).queue = s.queue := rfl
@[simp] theorem State.modTimer_commitReq (t : Fin 4) (f : Timer → Timer) (s : State) : (s.modTimer t f).commitReq = s.commitReq := rfl
@[simp] theorem State.modTimer_engine (t : Fin 4) (f : Timer → Timer) (s : State) : (s.modTimer t f).engine = s.engine := rfl
@[simp] theorem State.modTimer_hp (t : Fin 4) (f : Timer → Timer) (s : State) : (s.modTimer t f).hp = s.hp := rfl
@[simp] theorem State.modTimer_cp (t : Fin 4) (f : Timer → Timer) (s : State) : (s.modTimer t f).cp = s.cp := rfl
@[simp] theorem State.modTimer_issue (t : Fin 4) (f : Timer → Timer) (s : State) : (s.modTimer t f).issue = s.issue := rfl
@[simp] theorem State.modTimer_pointer (t : Fin 4) (f : Timer → Timer) (s : State) : (s.modTimer t f).pointer = s.pointer := rfl
@[simp] theorem State.modTimer_timers (t : Fin 4) (f : Timer → Timer) (s : State) : (s.modTimer t f).timers = s.timers.modify t f := rfl
@[simp] theorem State.modTimer_monitors (t : Fin 4) (f : Timer → Timer) (s : State) : (s.modTimer t f).monitors = s.monitors := rfl
@[simp] theorem State.modTimer_lines (t : Fin 4) (f : Timer → Timer) (s : State) : (s.modTimer t f).lines = s.lines := rfl
@[simp] theorem State.modTimer_events (t : Fin 4) (f : Timer → Timer) (s : State) : (s.modTimer t f).events = s.events := rfl
@[simp] theorem State.modTimer_mgmt (t : Fin 4) (f : Timer → Timer) (s : State) : (s.modTimer t f).mgmt = s.mgmt := rfl
@[simp] theorem State.modTimer_freeIndex (t : Fin 4) (f : Timer → Timer) (s : State) : (s.modTimer t f).freeIndex = s.freeIndex := rfl
@[simp] theorem State.modTimer_pending (t : Fin 4) (f : Timer → Timer) (s : State) : (s.modTimer t f).pending = s.pending := rfl
@[simp] theorem State.modLine_inReset (g : Fin 4) (f : Line → Line) (s : State) : (s.modLine g f).inReset = s.inReset := rfl
@[simp] theorem State.modLine_mode (g : Fin 4) (f : Line → Line) (s : State) : (s.modLine g f).mode = s.mode := rfl
@[simp] theorem State.modLine_chold (g : Fin 4) (f : Line → Line) (s : State) : (s.modLine g f).chold = s.chold := rfl
@[simp] theorem State.modLine_syncLine (g : Fin 4) (f : Line → Line) (s : State) : (s.modLine g f).syncLine = s.syncLine := rfl
@[simp] theorem State.modLine_syncRef (g : Fin 4) (f : Line → Line) (s : State) : (s.modLine g f).syncRef = s.syncRef := rfl
@[simp] theorem State.modLine_tick (g : Fin 4) (f : Line → Line) (s : State) : (s.modLine g f).tick = s.tick := rfl
@[simp] theorem State.modLine_windows (g : Fin 4) (f : Line → Line) (s : State) : (s.modLine g f).windows = s.windows := rfl
@[simp] theorem State.modLine_groups (g : Fin 4) (f : Line → Line) (s : State) : (s.modLine g f).groups = s.groups := rfl
@[simp] theorem State.modLine_queue (g : Fin 4) (f : Line → Line) (s : State) : (s.modLine g f).queue = s.queue := rfl
@[simp] theorem State.modLine_commitReq (g : Fin 4) (f : Line → Line) (s : State) : (s.modLine g f).commitReq = s.commitReq := rfl
@[simp] theorem State.modLine_engine (g : Fin 4) (f : Line → Line) (s : State) : (s.modLine g f).engine = s.engine := rfl
@[simp] theorem State.modLine_hp (g : Fin 4) (f : Line → Line) (s : State) : (s.modLine g f).hp = s.hp := rfl
@[simp] theorem State.modLine_cp (g : Fin 4) (f : Line → Line) (s : State) : (s.modLine g f).cp = s.cp := rfl
@[simp] theorem State.modLine_issue (g : Fin 4) (f : Line → Line) (s : State) : (s.modLine g f).issue = s.issue := rfl
@[simp] theorem State.modLine_pointer (g : Fin 4) (f : Line → Line) (s : State) : (s.modLine g f).pointer = s.pointer := rfl
@[simp] theorem State.modLine_timers (g : Fin 4) (f : Line → Line) (s : State) : (s.modLine g f).timers = s.timers := rfl
@[simp] theorem State.modLine_monitors (g : Fin 4) (f : Line → Line) (s : State) : (s.modLine g f).monitors = s.monitors := rfl
@[simp] theorem State.modLine_lines (g : Fin 4) (f : Line → Line) (s : State) : (s.modLine g f).lines = s.lines.modify g f := rfl
@[simp] theorem State.modLine_events (g : Fin 4) (f : Line → Line) (s : State) : (s.modLine g f).events = s.events := rfl
@[simp] theorem State.modLine_mgmt (g : Fin 4) (f : Line → Line) (s : State) : (s.modLine g f).mgmt = s.mgmt := rfl
@[simp] theorem State.modLine_freeIndex (g : Fin 4) (f : Line → Line) (s : State) : (s.modLine g f).freeIndex = s.freeIndex := rfl
@[simp] theorem State.modLine_pending (g : Fin 4) (f : Line → Line) (s : State) : (s.modLine g f).pending = s.pending := rfl

/-! ## One port, one head -/

@[simp] theorem State.setPort_inReset (p : PortId) (x : Port) (s : State) : (s.setPort p x).inReset = s.inReset := by cases p <;> rfl
@[simp] theorem State.setPort_mode (p : PortId) (x : Port) (s : State) : (s.setPort p x).mode = s.mode := by cases p <;> rfl
@[simp] theorem State.setPort_chold (p : PortId) (x : Port) (s : State) : (s.setPort p x).chold = s.chold := by cases p <;> rfl
@[simp] theorem State.setPort_syncLine (p : PortId) (x : Port) (s : State) : (s.setPort p x).syncLine = s.syncLine := by cases p <;> rfl
@[simp] theorem State.setPort_syncRef (p : PortId) (x : Port) (s : State) : (s.setPort p x).syncRef = s.syncRef := by cases p <;> rfl
@[simp] theorem State.setPort_tick (p : PortId) (x : Port) (s : State) : (s.setPort p x).tick = s.tick := by cases p <;> rfl
@[simp] theorem State.setPort_windows (p : PortId) (x : Port) (s : State) : (s.setPort p x).windows = s.windows := by cases p <;> rfl
@[simp] theorem State.setPort_groups (p : PortId) (x : Port) (s : State) : (s.setPort p x).groups = s.groups := by cases p <;> rfl
@[simp] theorem State.setPort_queue (p : PortId) (x : Port) (s : State) : (s.setPort p x).queue = s.queue := by cases p <;> rfl
@[simp] theorem State.setPort_commitReq (p : PortId) (x : Port) (s : State) : (s.setPort p x).commitReq = s.commitReq := by cases p <;> rfl
@[simp] theorem State.setPort_engine (p : PortId) (x : Port) (s : State) : (s.setPort p x).engine = s.engine := by cases p <;> rfl
@[simp] theorem State.setPort_issue (p : PortId) (x : Port) (s : State) : (s.setPort p x).issue = s.issue := by cases p <;> rfl
@[simp] theorem State.setPort_pointer (p : PortId) (x : Port) (s : State) : (s.setPort p x).pointer = s.pointer := by cases p <;> rfl
@[simp] theorem State.setPort_timers (p : PortId) (x : Port) (s : State) : (s.setPort p x).timers = s.timers := by cases p <;> rfl
@[simp] theorem State.setPort_monitors (p : PortId) (x : Port) (s : State) : (s.setPort p x).monitors = s.monitors := by cases p <;> rfl
@[simp] theorem State.setPort_lines (p : PortId) (x : Port) (s : State) : (s.setPort p x).lines = s.lines := by cases p <;> rfl
@[simp] theorem State.setPort_events (p : PortId) (x : Port) (s : State) : (s.setPort p x).events = s.events := by cases p <;> rfl
@[simp] theorem State.setPort_mgmt (p : PortId) (x : Port) (s : State) : (s.setPort p x).mgmt = s.mgmt := by cases p <;> rfl
@[simp] theorem State.setPort_freeIndex (p : PortId) (x : Port) (s : State) : (s.setPort p x).freeIndex = s.freeIndex := by cases p <;> rfl
@[simp] theorem State.setPort_pending (p : PortId) (x : Port) (s : State) : (s.setPort p x).pending = s.pending := by cases p <;> rfl
@[simp] theorem State.setPort_hp_hp (x : Port) (s : State) : (s.setPort .hp x).hp = x := rfl
@[simp] theorem State.setPort_hp_cp (x : Port) (s : State) : (s.setPort .hp x).cp = s.cp := rfl
@[simp] theorem State.setPort_cp_hp (x : Port) (s : State) : (s.setPort .cp x).hp = s.hp := rfl
@[simp] theorem State.setPort_cp_cp (x : Port) (s : State) : (s.setPort .cp x).cp = x := rfl
@[simp] theorem State.port_setPort (p : PortId) (x : Port) (s : State) : (s.setPort p x).port p = x := by cases p <;> rfl
@[simp] theorem State.setHead_inReset (p : PortId) (ph : SlotPhase) (s : State) : (s.setHead p ph).inReset = s.inReset := by cases p <;> rfl
@[simp] theorem State.setHead_mode (p : PortId) (ph : SlotPhase) (s : State) : (s.setHead p ph).mode = s.mode := by cases p <;> rfl
@[simp] theorem State.setHead_chold (p : PortId) (ph : SlotPhase) (s : State) : (s.setHead p ph).chold = s.chold := by cases p <;> rfl
@[simp] theorem State.setHead_syncLine (p : PortId) (ph : SlotPhase) (s : State) : (s.setHead p ph).syncLine = s.syncLine := by cases p <;> rfl
@[simp] theorem State.setHead_syncRef (p : PortId) (ph : SlotPhase) (s : State) : (s.setHead p ph).syncRef = s.syncRef := by cases p <;> rfl
@[simp] theorem State.setHead_tick (p : PortId) (ph : SlotPhase) (s : State) : (s.setHead p ph).tick = s.tick := by cases p <;> rfl
@[simp] theorem State.setHead_windows (p : PortId) (ph : SlotPhase) (s : State) : (s.setHead p ph).windows = s.windows := by cases p <;> rfl
@[simp] theorem State.setHead_groups (p : PortId) (ph : SlotPhase) (s : State) : (s.setHead p ph).groups = s.groups := by cases p <;> rfl
@[simp] theorem State.setHead_queue (p : PortId) (ph : SlotPhase) (s : State) : (s.setHead p ph).queue = s.queue := by cases p <;> rfl
@[simp] theorem State.setHead_commitReq (p : PortId) (ph : SlotPhase) (s : State) : (s.setHead p ph).commitReq = s.commitReq := by cases p <;> rfl
@[simp] theorem State.setHead_engine (p : PortId) (ph : SlotPhase) (s : State) : (s.setHead p ph).engine = s.engine := by cases p <;> rfl
@[simp] theorem State.setHead_issue (p : PortId) (ph : SlotPhase) (s : State) : (s.setHead p ph).issue = s.issue := by cases p <;> rfl
@[simp] theorem State.setHead_pointer (p : PortId) (ph : SlotPhase) (s : State) : (s.setHead p ph).pointer = s.pointer := by cases p <;> rfl
@[simp] theorem State.setHead_timers (p : PortId) (ph : SlotPhase) (s : State) : (s.setHead p ph).timers = s.timers := by cases p <;> rfl
@[simp] theorem State.setHead_monitors (p : PortId) (ph : SlotPhase) (s : State) : (s.setHead p ph).monitors = s.monitors := by cases p <;> rfl
@[simp] theorem State.setHead_lines (p : PortId) (ph : SlotPhase) (s : State) : (s.setHead p ph).lines = s.lines := by cases p <;> rfl
@[simp] theorem State.setHead_events (p : PortId) (ph : SlotPhase) (s : State) : (s.setHead p ph).events = s.events := by cases p <;> rfl
@[simp] theorem State.setHead_mgmt (p : PortId) (ph : SlotPhase) (s : State) : (s.setHead p ph).mgmt = s.mgmt := by cases p <;> rfl
@[simp] theorem State.setHead_freeIndex (p : PortId) (ph : SlotPhase) (s : State) : (s.setHead p ph).freeIndex = s.freeIndex := by cases p <;> rfl
@[simp] theorem State.setHead_pending (p : PortId) (ph : SlotPhase) (s : State) : (s.setHead p ph).pending = s.pending := by cases p <;> rfl
@[simp] theorem State.setHead_hp_hp (ph : SlotPhase) (s : State) : (s.setHead .hp ph).hp = s.hp.setHead ph := rfl
@[simp] theorem State.setHead_hp_cp (ph : SlotPhase) (s : State) : (s.setHead .hp ph).cp = s.cp := rfl
@[simp] theorem State.setHead_cp_hp (ph : SlotPhase) (s : State) : (s.setHead .cp ph).hp = s.hp := rfl
@[simp] theorem State.setHead_cp_cp (ph : SlotPhase) (s : State) : (s.setHead .cp ph).cp = s.cp.setHead ph := rfl
@[simp] theorem Port.setHead_slots (ph : SlotPhase) (p : Port) : (p.setHead ph).slots = replaceHead ph p.slots := rfl
@[simp] theorem Port.setHead_offered (ph : SlotPhase) (p : Port) : (p.setHead ph).offered = p.offered := rfl
@[simp] theorem Port.setHead_delivered (ph : SlotPhase) (p : Port) : (p.setHead ph).delivered = p.delivered := rfl

/-! ## One flag, one record, one reply -/

@[simp] theorem State.cause_inReset (f : EventFlag) (s : State) : (s.cause f).inReset = s.inReset := rfl
@[simp] theorem State.cause_mode (f : EventFlag) (s : State) : (s.cause f).mode = s.mode := rfl
@[simp] theorem State.cause_chold (f : EventFlag) (s : State) : (s.cause f).chold = s.chold := rfl
@[simp] theorem State.cause_syncLine (f : EventFlag) (s : State) : (s.cause f).syncLine = s.syncLine := rfl
@[simp] theorem State.cause_syncRef (f : EventFlag) (s : State) : (s.cause f).syncRef = s.syncRef := rfl
@[simp] theorem State.cause_tick (f : EventFlag) (s : State) : (s.cause f).tick = s.tick := rfl
@[simp] theorem State.cause_windows (f : EventFlag) (s : State) : (s.cause f).windows = s.windows := rfl
@[simp] theorem State.cause_groups (f : EventFlag) (s : State) : (s.cause f).groups = s.groups := rfl
@[simp] theorem State.cause_queue (f : EventFlag) (s : State) : (s.cause f).queue = s.queue := rfl
@[simp] theorem State.cause_commitReq (f : EventFlag) (s : State) : (s.cause f).commitReq = s.commitReq := rfl
@[simp] theorem State.cause_engine (f : EventFlag) (s : State) : (s.cause f).engine = s.engine := rfl
@[simp] theorem State.cause_hp (f : EventFlag) (s : State) : (s.cause f).hp = s.hp := rfl
@[simp] theorem State.cause_cp (f : EventFlag) (s : State) : (s.cause f).cp = s.cp := rfl
@[simp] theorem State.cause_issue (f : EventFlag) (s : State) : (s.cause f).issue = s.issue := rfl
@[simp] theorem State.cause_pointer (f : EventFlag) (s : State) : (s.cause f).pointer = s.pointer := rfl
@[simp] theorem State.cause_timers (f : EventFlag) (s : State) : (s.cause f).timers = s.timers := rfl
@[simp] theorem State.cause_monitors (f : EventFlag) (s : State) : (s.cause f).monitors = s.monitors := rfl
@[simp] theorem State.cause_lines (f : EventFlag) (s : State) : (s.cause f).lines = s.lines := rfl
@[simp] theorem State.cause_events (f : EventFlag) (s : State) : (s.cause f).events = s.events.cause f := rfl
@[simp] theorem State.cause_mgmt (f : EventFlag) (s : State) : (s.cause f).mgmt = s.mgmt := rfl
@[simp] theorem State.cause_freeIndex (f : EventFlag) (s : State) : (s.cause f).freeIndex = s.freeIndex := rfl
@[simp] theorem State.cause_pending (f : EventFlag) (s : State) : (s.cause f).pending = s.pending := rfl
@[simp] theorem State.placeRecord_inReset (r : IssueRec) (s : State) : (s.placeRecord r).inReset = s.inReset := rfl
@[simp] theorem State.placeRecord_mode (r : IssueRec) (s : State) : (s.placeRecord r).mode = s.mode := rfl
@[simp] theorem State.placeRecord_chold (r : IssueRec) (s : State) : (s.placeRecord r).chold = s.chold := rfl
@[simp] theorem State.placeRecord_syncLine (r : IssueRec) (s : State) : (s.placeRecord r).syncLine = s.syncLine := rfl
@[simp] theorem State.placeRecord_syncRef (r : IssueRec) (s : State) : (s.placeRecord r).syncRef = s.syncRef := rfl
@[simp] theorem State.placeRecord_tick (r : IssueRec) (s : State) : (s.placeRecord r).tick = s.tick := rfl
@[simp] theorem State.placeRecord_windows (r : IssueRec) (s : State) : (s.placeRecord r).windows = s.windows := rfl
@[simp] theorem State.placeRecord_groups (r : IssueRec) (s : State) : (s.placeRecord r).groups = s.groups := rfl
@[simp] theorem State.placeRecord_queue (r : IssueRec) (s : State) : (s.placeRecord r).queue = s.queue := rfl
@[simp] theorem State.placeRecord_commitReq (r : IssueRec) (s : State) : (s.placeRecord r).commitReq = s.commitReq := rfl
@[simp] theorem State.placeRecord_engine (r : IssueRec) (s : State) : (s.placeRecord r).engine = s.engine := rfl
@[simp] theorem State.placeRecord_hp (r : IssueRec) (s : State) : (s.placeRecord r).hp = s.hp := rfl
@[simp] theorem State.placeRecord_cp (r : IssueRec) (s : State) : (s.placeRecord r).cp = s.cp := rfl
@[simp] theorem State.placeRecord_issue (r : IssueRec) (s : State) : (s.placeRecord r).issue = s.issue ++ [r] := rfl
@[simp] theorem State.placeRecord_pointer (r : IssueRec) (s : State) : (s.placeRecord r).pointer = s.pointer := rfl
@[simp] theorem State.placeRecord_timers (r : IssueRec) (s : State) : (s.placeRecord r).timers = s.timers := rfl
@[simp] theorem State.placeRecord_monitors (r : IssueRec) (s : State) : (s.placeRecord r).monitors = s.monitors := rfl
@[simp] theorem State.placeRecord_lines (r : IssueRec) (s : State) : (s.placeRecord r).lines = s.lines := rfl
@[simp] theorem State.placeRecord_events (r : IssueRec) (s : State) : (s.placeRecord r).events = s.events := rfl
@[simp] theorem State.placeRecord_mgmt (r : IssueRec) (s : State) : (s.placeRecord r).mgmt = s.mgmt := rfl
@[simp] theorem State.placeRecord_freeIndex (r : IssueRec) (s : State) : (s.placeRecord r).freeIndex = s.freeIndex := rfl
@[simp] theorem State.placeRecord_pending (r : IssueRec) (s : State) : (s.placeRecord r).pending = s.pending := rfl
@[simp] theorem startReply_inReset (bytes : List Byte) (s : State) : (startReply bytes s).inReset = s.inReset := rfl
@[simp] theorem startReply_mode (bytes : List Byte) (s : State) : (startReply bytes s).mode = s.mode := rfl
@[simp] theorem startReply_chold (bytes : List Byte) (s : State) : (startReply bytes s).chold = s.chold := rfl
@[simp] theorem startReply_syncLine (bytes : List Byte) (s : State) : (startReply bytes s).syncLine = s.syncLine := rfl
@[simp] theorem startReply_syncRef (bytes : List Byte) (s : State) : (startReply bytes s).syncRef = s.syncRef := rfl
@[simp] theorem startReply_tick (bytes : List Byte) (s : State) : (startReply bytes s).tick = s.tick := rfl
@[simp] theorem startReply_windows (bytes : List Byte) (s : State) : (startReply bytes s).windows = s.windows := rfl
@[simp] theorem startReply_groups (bytes : List Byte) (s : State) : (startReply bytes s).groups = s.groups := rfl
@[simp] theorem startReply_queue (bytes : List Byte) (s : State) : (startReply bytes s).queue = s.queue := rfl
@[simp] theorem startReply_commitReq (bytes : List Byte) (s : State) : (startReply bytes s).commitReq = s.commitReq := rfl
@[simp] theorem startReply_engine (bytes : List Byte) (s : State) : (startReply bytes s).engine = s.engine := rfl
@[simp] theorem startReply_hp (bytes : List Byte) (s : State) : (startReply bytes s).hp = s.hp := rfl
@[simp] theorem startReply_cp (bytes : List Byte) (s : State) : (startReply bytes s).cp = s.cp := rfl
@[simp] theorem startReply_issue (bytes : List Byte) (s : State) : (startReply bytes s).issue = s.issue := rfl
@[simp] theorem startReply_pointer (bytes : List Byte) (s : State) : (startReply bytes s).pointer = s.pointer := rfl
@[simp] theorem startReply_timers (bytes : List Byte) (s : State) : (startReply bytes s).timers = s.timers := rfl
@[simp] theorem startReply_monitors (bytes : List Byte) (s : State) : (startReply bytes s).monitors = s.monitors := rfl
@[simp] theorem startReply_lines (bytes : List Byte) (s : State) : (startReply bytes s).lines = s.lines := rfl
@[simp] theorem startReply_events (bytes : List Byte) (s : State) : (startReply bytes s).events = s.events := rfl
@[simp] theorem startReply_mgmt (bytes : List Byte) (s : State) : (startReply bytes s).mgmt = ⟨.reply, [], none, bytes, some 0⟩ := rfl
@[simp] theorem startReply_freeIndex (bytes : List Byte) (s : State) : (startReply bytes s).freeIndex = s.freeIndex := rfl
@[simp] theorem startReply_pending (bytes : List Byte) (s : State) : (startReply bytes s).pending = s.pending := rfl

/-! ## Seals, completions and drains -/

@[simp] theorem admitWrite_inReset (g : Fin 4) (r : Request) (s : State) : (admitWrite g r s).inReset = s.inReset := rfl
@[simp] theorem admitWrite_mode (g : Fin 4) (r : Request) (s : State) : (admitWrite g r s).mode = s.mode := rfl
@[simp] theorem admitWrite_chold (g : Fin 4) (r : Request) (s : State) : (admitWrite g r s).chold = s.chold := rfl
@[simp] theorem admitWrite_syncLine (g : Fin 4) (r : Request) (s : State) : (admitWrite g r s).syncLine = s.syncLine := rfl
@[simp] theorem admitWrite_syncRef (g : Fin 4) (r : Request) (s : State) : (admitWrite g r s).syncRef = s.syncRef := rfl
@[simp] theorem admitWrite_tick (g : Fin 4) (r : Request) (s : State) : (admitWrite g r s).tick = s.tick := rfl
@[simp] theorem admitWrite_windows (g : Fin 4) (r : Request) (s : State) : (admitWrite g r s).windows = s.windows := rfl
@[simp] theorem admitWrite_queue (g : Fin 4) (r : Request) (s : State) : (admitWrite g r s).queue = admitWords g r s.queue := rfl
@[simp] theorem admitWrite_commitReq (g : Fin 4) (r : Request) (s : State) : (admitWrite g r s).commitReq = s.commitReq := rfl
@[simp] theorem admitWrite_engine (g : Fin 4) (r : Request) (s : State) : (admitWrite g r s).engine = s.engine := rfl
@[simp] theorem admitWrite_hp (g : Fin 4) (r : Request) (s : State) : (admitWrite g r s).hp = s.hp := rfl
@[simp] theorem admitWrite_cp (g : Fin 4) (r : Request) (s : State) : (admitWrite g r s).cp = s.cp := rfl
@[simp] theorem admitWrite_issue (g : Fin 4) (r : Request) (s : State) : (admitWrite g r s).issue = s.issue := rfl
@[simp] theorem admitWrite_pointer (g : Fin 4) (r : Request) (s : State) : (admitWrite g r s).pointer = s.pointer := rfl
@[simp] theorem admitWrite_timers (g : Fin 4) (r : Request) (s : State) : (admitWrite g r s).timers = s.timers := rfl
@[simp] theorem admitWrite_monitors (g : Fin 4) (r : Request) (s : State) : (admitWrite g r s).monitors = s.monitors := rfl
@[simp] theorem admitWrite_lines (g : Fin 4) (r : Request) (s : State) : (admitWrite g r s).lines = s.lines := rfl
@[simp] theorem admitWrite_events (g : Fin 4) (r : Request) (s : State) : (admitWrite g r s).events = s.events := rfl
@[simp] theorem admitWrite_mgmt (g : Fin 4) (r : Request) (s : State) : (admitWrite g r s).mgmt = s.mgmt := rfl
@[simp] theorem admitWrite_freeIndex (g : Fin 4) (r : Request) (s : State) : (admitWrite g r s).freeIndex = s.freeIndex := rfl
@[simp] theorem admitWrite_pending (g : Fin 4) (r : Request) (s : State) : (admitWrite g r s).pending = s.pending := rfl
@[simp] theorem sealCore_inReset (g : Fin 4) (s : State) : (sealCore g s).inReset = s.inReset := rfl
@[simp] theorem sealCore_mode (g : Fin 4) (s : State) : (sealCore g s).mode = s.mode := rfl
@[simp] theorem sealCore_chold (g : Fin 4) (s : State) : (sealCore g s).chold = s.chold := rfl
@[simp] theorem sealCore_syncLine (g : Fin 4) (s : State) : (sealCore g s).syncLine = s.syncLine := rfl
@[simp] theorem sealCore_syncRef (g : Fin 4) (s : State) : (sealCore g s).syncRef = s.syncRef := rfl
@[simp] theorem sealCore_tick (g : Fin 4) (s : State) : (sealCore g s).tick = s.tick := rfl
@[simp] theorem sealCore_windows (g : Fin 4) (s : State) : (sealCore g s).windows = s.windows := rfl
@[simp] theorem sealCore_groups (g : Fin 4) (s : State) : (sealCore g s).groups = s.groups.modify g GroupRec.onSeal := rfl
@[simp] theorem sealCore_queue (g : Fin 4) (s : State) : (sealCore g s).queue = s.queue.map (Entry.sealFor g) := rfl
@[simp] theorem sealCore_commitReq (g : Fin 4) (s : State) : (sealCore g s).commitReq = s.commitReq ++ [g] := rfl
@[simp] theorem sealCore_engine (g : Fin 4) (s : State) : (sealCore g s).engine = s.engine := rfl
@[simp] theorem sealCore_hp (g : Fin 4) (s : State) : (sealCore g s).hp = s.hp := rfl
@[simp] theorem sealCore_cp (g : Fin 4) (s : State) : (sealCore g s).cp = s.cp := rfl
@[simp] theorem sealCore_issue (g : Fin 4) (s : State) : (sealCore g s).issue = s.issue := rfl
@[simp] theorem sealCore_pointer (g : Fin 4) (s : State) : (sealCore g s).pointer = s.pointer := rfl
@[simp] theorem sealCore_timers (g : Fin 4) (s : State) : (sealCore g s).timers = s.timers := rfl
@[simp] theorem sealCore_monitors (g : Fin 4) (s : State) : (sealCore g s).monitors = s.monitors := rfl
@[simp] theorem sealCore_lines (g : Fin 4) (s : State) : (sealCore g s).lines = s.lines.modify g Line.onSeal := rfl
@[simp] theorem sealCore_events (g : Fin 4) (s : State) : (sealCore g s).events = s.events.cause (.sealed g) := rfl
@[simp] theorem sealCore_mgmt (g : Fin 4) (s : State) : (sealCore g s).mgmt = s.mgmt := rfl
@[simp] theorem sealCore_freeIndex (g : Fin 4) (s : State) : (sealCore g s).freeIndex = s.freeIndex := rfl
@[simp] theorem sealCore_pending (g : Fin 4) (s : State) : (sealCore g s).pending = s.pending := rfl
@[simp] theorem completeCore_inReset (g : Fin 4) (s : State) : (completeCore g s).inReset = s.inReset := rfl
@[simp] theorem completeCore_mode (g : Fin 4) (s : State) : (completeCore g s).mode = s.mode := rfl
@[simp] theorem completeCore_chold (g : Fin 4) (s : State) : (completeCore g s).chold = s.chold := rfl
@[simp] theorem completeCore_syncLine (g : Fin 4) (s : State) : (completeCore g s).syncLine = s.syncLine := rfl
@[simp] theorem completeCore_syncRef (g : Fin 4) (s : State) : (completeCore g s).syncRef = s.syncRef := rfl
@[simp] theorem completeCore_tick (g : Fin 4) (s : State) : (completeCore g s).tick = s.tick := rfl
@[simp] theorem completeCore_windows (g : Fin 4) (s : State) : (completeCore g s).windows = s.windows := rfl
@[simp] theorem completeCore_groups (g : Fin 4) (s : State) : (completeCore g s).groups = s.groups.modify g GroupRec.onCompletion := rfl
@[simp] theorem completeCore_queue (g : Fin 4) (s : State) : (completeCore g s).queue = s.queue := rfl
@[simp] theorem completeCore_commitReq (g : Fin 4) (s : State) : (completeCore g s).commitReq = s.commitReq := rfl
@[simp] theorem completeCore_engine (g : Fin 4) (s : State) : (completeCore g s).engine = { s.engine with state := .idle } := rfl
@[simp] theorem completeCore_hp (g : Fin 4) (s : State) : (completeCore g s).hp = s.hp := rfl
@[simp] theorem completeCore_cp (g : Fin 4) (s : State) : (completeCore g s).cp = s.cp := rfl
@[simp] theorem completeCore_issue (g : Fin 4) (s : State) : (completeCore g s).issue = s.issue := rfl
@[simp] theorem completeCore_pointer (g : Fin 4) (s : State) : (completeCore g s).pointer = s.pointer := rfl
@[simp] theorem completeCore_timers (g : Fin 4) (s : State) : (completeCore g s).timers = s.timers := rfl
@[simp] theorem completeCore_monitors (g : Fin 4) (s : State) : (completeCore g s).monitors = s.monitors := rfl
@[simp] theorem completeCore_lines (g : Fin 4) (s : State) : (completeCore g s).lines = s.lines.modify g Line.onCompletion := rfl
@[simp] theorem completeCore_events (g : Fin 4) (s : State) : (completeCore g s).events = s.events.cause (.committed g) := rfl
@[simp] theorem completeCore_mgmt (g : Fin 4) (s : State) : (completeCore g s).mgmt = s.mgmt := rfl
@[simp] theorem completeCore_freeIndex (g : Fin 4) (s : State) : (completeCore g s).freeIndex = s.freeIndex := rfl
@[simp] theorem completeCore_pending (g : Fin 4) (s : State) : (completeCore g s).pending = s.pending := rfl
@[simp] theorem beginDrain_inReset (g : Fin 4) (rest : List (Fin 4)) (s : State) : (beginDrain g rest s).inReset = s.inReset := rfl
@[simp] theorem beginDrain_mode (g : Fin 4) (rest : List (Fin 4)) (s : State) : (beginDrain g rest s).mode = s.mode := rfl
@[simp] theorem beginDrain_chold (g : Fin 4) (rest : List (Fin 4)) (s : State) : (beginDrain g rest s).chold = s.chold := rfl
@[simp] theorem beginDrain_syncLine (g : Fin 4) (rest : List (Fin 4)) (s : State) : (beginDrain g rest s).syncLine = s.syncLine := rfl
@[simp] theorem beginDrain_syncRef (g : Fin 4) (rest : List (Fin 4)) (s : State) : (beginDrain g rest s).syncRef = s.syncRef := rfl
@[simp] theorem beginDrain_tick (g : Fin 4) (rest : List (Fin 4)) (s : State) : (beginDrain g rest s).tick = s.tick := rfl
@[simp] theorem beginDrain_windows (g : Fin 4) (rest : List (Fin 4)) (s : State) : (beginDrain g rest s).windows = s.windows := rfl
@[simp] theorem beginDrain_groups (g : Fin 4) (rest : List (Fin 4)) (s : State) : (beginDrain g rest s).groups = s.groups := rfl
@[simp] theorem beginDrain_queue (g : Fin 4) (rest : List (Fin 4)) (s : State) : (beginDrain g rest s).queue = s.queue := rfl
@[simp] theorem beginDrain_commitReq (g : Fin 4) (rest : List (Fin 4)) (s : State) : (beginDrain g rest s).commitReq = rest := rfl
@[simp] theorem beginDrain_engine (g : Fin 4) (rest : List (Fin 4)) (s : State) : (beginDrain g rest s).engine = { s.engine with state := .draining g, retry := [] } := rfl
@[simp] theorem beginDrain_hp (g : Fin 4) (rest : List (Fin 4)) (s : State) : (beginDrain g rest s).hp = s.hp := rfl
@[simp] theorem beginDrain_cp (g : Fin 4) (rest : List (Fin 4)) (s : State) : (beginDrain g rest s).cp = s.cp := rfl
@[simp] theorem beginDrain_issue (g : Fin 4) (rest : List (Fin 4)) (s : State) : (beginDrain g rest s).issue = s.issue := rfl
@[simp] theorem beginDrain_pointer (g : Fin 4) (rest : List (Fin 4)) (s : State) : (beginDrain g rest s).pointer = s.pointer := rfl
@[simp] theorem beginDrain_timers (g : Fin 4) (rest : List (Fin 4)) (s : State) : (beginDrain g rest s).timers = s.timers := rfl
@[simp] theorem beginDrain_monitors (g : Fin 4) (rest : List (Fin 4)) (s : State) : (beginDrain g rest s).monitors = s.monitors := rfl
@[simp] theorem beginDrain_lines (g : Fin 4) (rest : List (Fin 4)) (s : State) : (beginDrain g rest s).lines = s.lines := rfl
@[simp] theorem beginDrain_events (g : Fin 4) (rest : List (Fin 4)) (s : State) : (beginDrain g rest s).events = s.events := rfl
@[simp] theorem beginDrain_mgmt (g : Fin 4) (rest : List (Fin 4)) (s : State) : (beginDrain g rest s).mgmt = s.mgmt := rfl
@[simp] theorem beginDrain_freeIndex (g : Fin 4) (rest : List (Fin 4)) (s : State) : (beginDrain g rest s).freeIndex = s.freeIndex := rfl
@[simp] theorem beginDrain_pending (g : Fin 4) (rest : List (Fin 4)) (s : State) : (beginDrain g rest s).pending = s.pending := rfl
@[simp] theorem removeSealed_inReset (g : Fin 4) (a : Addr) (s : State) : (removeSealed g a s).inReset = s.inReset := rfl
@[simp] theorem removeSealed_mode (g : Fin 4) (a : Addr) (s : State) : (removeSealed g a s).mode = s.mode := rfl
@[simp] theorem removeSealed_chold (g : Fin 4) (a : Addr) (s : State) : (removeSealed g a s).chold = s.chold := rfl
@[simp] theorem removeSealed_syncLine (g : Fin 4) (a : Addr) (s : State) : (removeSealed g a s).syncLine = s.syncLine := rfl
@[simp] theorem removeSealed_syncRef (g : Fin 4) (a : Addr) (s : State) : (removeSealed g a s).syncRef = s.syncRef := rfl
@[simp] theorem removeSealed_tick (g : Fin 4) (a : Addr) (s : State) : (removeSealed g a s).tick = s.tick := rfl
@[simp] theorem removeSealed_windows (g : Fin 4) (a : Addr) (s : State) : (removeSealed g a s).windows = s.windows := rfl
@[simp] theorem removeSealed_groups (g : Fin 4) (a : Addr) (s : State) : (removeSealed g a s).groups = s.groups.modify g (fun x => { x with sealedCount := x.sealedCount - 1 }) := rfl
@[simp] theorem removeSealed_queue (g : Fin 4) (a : Addr) (s : State) : (removeSealed g a s).queue = s.queue.eraseP (Entry.at g .sealed a) := rfl
@[simp] theorem removeSealed_commitReq (g : Fin 4) (a : Addr) (s : State) : (removeSealed g a s).commitReq = s.commitReq := rfl
@[simp] theorem removeSealed_engine (g : Fin 4) (a : Addr) (s : State) : (removeSealed g a s).engine = s.engine := rfl
@[simp] theorem removeSealed_hp (g : Fin 4) (a : Addr) (s : State) : (removeSealed g a s).hp = s.hp := rfl
@[simp] theorem removeSealed_cp (g : Fin 4) (a : Addr) (s : State) : (removeSealed g a s).cp = s.cp := rfl
@[simp] theorem removeSealed_issue (g : Fin 4) (a : Addr) (s : State) : (removeSealed g a s).issue = s.issue := rfl
@[simp] theorem removeSealed_pointer (g : Fin 4) (a : Addr) (s : State) : (removeSealed g a s).pointer = s.pointer := rfl
@[simp] theorem removeSealed_timers (g : Fin 4) (a : Addr) (s : State) : (removeSealed g a s).timers = s.timers := rfl
@[simp] theorem removeSealed_monitors (g : Fin 4) (a : Addr) (s : State) : (removeSealed g a s).monitors = s.monitors := rfl
@[simp] theorem removeSealed_lines (g : Fin 4) (a : Addr) (s : State) : (removeSealed g a s).lines = s.lines := rfl
@[simp] theorem removeSealed_events (g : Fin 4) (a : Addr) (s : State) : (removeSealed g a s).events = s.events := rfl
@[simp] theorem removeSealed_mgmt (g : Fin 4) (a : Addr) (s : State) : (removeSealed g a s).mgmt = s.mgmt := rfl
@[simp] theorem removeSealed_freeIndex (g : Fin 4) (a : Addr) (s : State) : (removeSealed g a s).freeIndex = s.freeIndex := rfl
@[simp] theorem removeSealed_pending (g : Fin 4) (a : Addr) (s : State) : (removeSealed g a s).pending = s.pending := rfl
@[simp] theorem discardOpen_inReset (g : Fin 4) (s : State) : (discardOpen g s).inReset = s.inReset := rfl
@[simp] theorem discardOpen_mode (g : Fin 4) (s : State) : (discardOpen g s).mode = s.mode := rfl
@[simp] theorem discardOpen_chold (g : Fin 4) (s : State) : (discardOpen g s).chold = s.chold := rfl
@[simp] theorem discardOpen_syncLine (g : Fin 4) (s : State) : (discardOpen g s).syncLine = s.syncLine := rfl
@[simp] theorem discardOpen_syncRef (g : Fin 4) (s : State) : (discardOpen g s).syncRef = s.syncRef := rfl
@[simp] theorem discardOpen_tick (g : Fin 4) (s : State) : (discardOpen g s).tick = s.tick := rfl
@[simp] theorem discardOpen_windows (g : Fin 4) (s : State) : (discardOpen g s).windows = s.windows := rfl
@[simp] theorem discardOpen_groups (g : Fin 4) (s : State) : (discardOpen g s).groups = s.groups.modify g (fun x => { x with openCount := 0 }) := rfl
@[simp] theorem discardOpen_queue (g : Fin 4) (s : State) : (discardOpen g s).queue = s.queue.filter (fun e => !(e.group == g && e.role == .opened)) := rfl
@[simp] theorem discardOpen_commitReq (g : Fin 4) (s : State) : (discardOpen g s).commitReq = s.commitReq := rfl
@[simp] theorem discardOpen_engine (g : Fin 4) (s : State) : (discardOpen g s).engine = s.engine := rfl
@[simp] theorem discardOpen_hp (g : Fin 4) (s : State) : (discardOpen g s).hp = s.hp := rfl
@[simp] theorem discardOpen_cp (g : Fin 4) (s : State) : (discardOpen g s).cp = s.cp := rfl
@[simp] theorem discardOpen_issue (g : Fin 4) (s : State) : (discardOpen g s).issue = s.issue := rfl
@[simp] theorem discardOpen_pointer (g : Fin 4) (s : State) : (discardOpen g s).pointer = s.pointer := rfl
@[simp] theorem discardOpen_timers (g : Fin 4) (s : State) : (discardOpen g s).timers = s.timers := rfl
@[simp] theorem discardOpen_monitors (g : Fin 4) (s : State) : (discardOpen g s).monitors = s.monitors := rfl
@[simp] theorem discardOpen_lines (g : Fin 4) (s : State) : (discardOpen g s).lines = s.lines := rfl
@[simp] theorem discardOpen_events (g : Fin 4) (s : State) : (discardOpen g s).events = s.events := rfl
@[simp] theorem discardOpen_mgmt (g : Fin 4) (s : State) : (discardOpen g s).mgmt = s.mgmt := rfl
@[simp] theorem discardOpen_freeIndex (g : Fin 4) (s : State) : (discardOpen g s).freeIndex = s.freeIndex := rfl
@[simp] theorem discardOpen_pending (g : Fin 4) (s : State) : (discardOpen g s).pending = s.pending := rfl

end Sys2Proof.Machine
end

