-- ==== Sys2Proof/Laws/Ports.lean ====
section
/-! SUPPORT. The ports: free slots, heads and held writes; the classifier in the terms of the statements. -/

namespace Sys2Proof.Machine

/-! ## Slots -/

/-- With fewer than four slots occupied, the slot a request is taken into is free (R123). -/
theorem freeSlot_free {slots : List Slot} (h : slots.length < 4) : ∀ sl ∈ slots, sl.id ≠ freeSlot slots := by
  unfold freeSlot
  cases hf : four.find? (fun i => slots.all (fun sl => sl.id != i)) with
  | some i =>
    have := List.find?_some hf
    simp only [List.all_eq_true, bne_iff_ne] at this
    simpa using this
  | none =>
    exfalso
    have hall : ∀ i : Fin 4, i ∈ (slots.map Slot.id).toFinset := by
      intro i
      have := List.find?_eq_none.mp hf i (mem_four i)
      simp only [List.all_eq_true, bne_iff_ne, not_forall] at this
      obtain ⟨sl, hm, he⟩ := this
      simp only [List.mem_toFinset, List.mem_map]
      exact ⟨sl, hm, not_not.mp he⟩
    have hc : (slots.map Slot.id).toFinset.card = 4 := by
      rw [Finset.eq_univ_iff_forall.mpr hall]; rfl
    have := List.toFinset_card_le (slots.map Slot.id)
    simp at this
    omega

@[simp] theorem acceptOffered_nil (p : Port) : acceptOffered [] p = { p with offered := [] } := rfl

theorem acceptOffered_full {l : List Request} {p : Port} (h : 4 ≤ p.slots.length) :
    acceptOffered l p = { p with offered := l } := by
  cases l with
  | nil => rfl
  | cons r rest => simp [acceptOffered, Config.portSlots, Nat.not_lt.mpr h]

theorem acceptOffered_room {r : Request} {rest : List Request} {p : Port} (h : p.slots.length < 4) :
    acceptOffered (r :: rest) p = acceptOffered rest (p.accept r) := by
  simp [acceptOffered, Config.portSlots, h]

/-! ## Heads -/

/-- Where the head of a port stands: behind slots that are issued or answered. -/
theorem head_split {p : Port} {sl : Slot} (h : p.head? = some sl) :
    ∃ l1 l2, p.slots = l1 ++ sl :: l2 ∧ sl.active = true ∧ ∀ x ∈ l1, x.active = false := by
  unfold Port.head? at h
  obtain ⟨ha, l1, l2, hs, hl⟩ := List.find?_eq_some_iff_append.mp h
  exact ⟨l1, l2, hs, ha, fun x hx => by simpa using hl x hx⟩

/-- A port whose slots are so split has that head. -/
theorem head_of_split {p : Port} {sl : Slot} {l1 l2 : List Slot} (hs : p.slots = l1 ++ sl :: l2)
    (ha : sl.active = true) (h1 : ∀ x ∈ l1, x.active = false) : p.head? = some sl := by
  unfold Port.head?
  exact List.find?_eq_some_iff_append.mpr ⟨ha, l1, l2, hs, fun x hx => by simp [h1 x hx]⟩

/-- The slots with the head moved to another phase. -/
theorem replaceHead_split {sl : Slot} {l1 l2 : List Slot} (ph : SlotPhase) (ha : sl.active = true)
    (h1 : ∀ x ∈ l1, x.active = false) : replaceHead ph (l1 ++ sl :: l2) = l1 ++ { sl with phase := ph } :: l2 := by
  induction l1 with
  | nil => simp [replaceHead, ha]
  | cons x l ih =>
    simp only [List.cons_append, replaceHead, h1 x (by simp), Bool.false_eq_true, if_false]
    rw [ih (fun y hy => h1 y (by simp [hy]))]

/-- Without a head the slots stay as they are. -/
theorem replaceHead_none {slots : List Slot} (ph : SlotPhase) (h : slots.find? Slot.active = none) :
    replaceHead ph slots = slots := by
  induction slots with
  | nil => rfl
  | cons x l ih =>
    simp only [List.find?_cons] at h
    cases hx : x.active <;> simp_all [replaceHead]

@[simp] theorem replaceHead_length (ph : SlotPhase) (slots : List Slot) :
    (replaceHead ph slots).length = slots.length := by
  induction slots with
  | nil => rfl
  | cons x l ih => cases hx : x.active <;> simp [replaceHead, hx, ih]

@[simp] theorem replaceHead_ids (ph : SlotPhase) (slots : List Slot) :
    (replaceHead ph slots).map Slot.id = slots.map Slot.id := by
  induction slots with
  | nil => rfl
  | cons x l ih => cases hx : x.active <;> simp [replaceHead, hx, ih]

/-- After the head has moved to a phase that is again a head, it is the head. -/
theorem head_setHead {p : Port} {sl : Slot} (h : p.head? = some sl) (ph : SlotPhase)
    (hp : Slot.active { sl with phase := ph } = true) : (p.setHead ph).head? = some { sl with phase := ph } := by
  obtain ⟨l1, l2, hs, ha, h1⟩ := head_split h
  exact head_of_split (l2 := l2) (by rw [Port.setHead_slots, hs, replaceHead_split ph ha h1]) hp h1

/-- A head moved twice has moved to the second phase, when the first keeps it the head. -/
theorem setHead_setHead {p : Port} {sl : Slot} (h : p.head? = some sl) (ph qh : SlotPhase)
    (hp : Slot.active { sl with phase := ph } = true) : (p.setHead ph).setHead qh = p.setHead qh := by
  obtain ⟨l1, l2, hs, ha, h1⟩ := head_split h
  simp only [Port.setHead, hs, replaceHead_split ph ha h1, replaceHead_split qh ha h1, replaceHead_split qh hp h1]

/-- The held write is the request of a head in the held role. -/
theorem held_eq_some {s : State} {h : HeldWrite} :
    s.held = some h ↔ ∃ i, s.hp.head? = some ⟨i, h.req, .head h.cls (.held h.cause h.timer)⟩ := by
  unfold State.held
  constructor
  · intro hh
    split at hh
    next sl hsl =>
      split at hh
      next cls cause timer hph =>
        refine ⟨sl.id, ?_⟩
        obtain ⟨i, q, ph⟩ := sl
        simp only at hph
        subst hph
        obtain rfl := Option.some.inj hh
        exact hsl
      all_goals cases hh
    next => cases hh
  · rintro ⟨i, hi⟩
    simp [hi]

/-! ## The classifier -/

theorem requestWords_length (r : Request) : (requestWords r).length = r.count.toNat := by
  simp [requestWords, wordsFrom]

/-- The three checks of form in the terms of the statements (R7). -/
theorem misaligned_iff (r : Request) : misaligned r = true ↔ r.addr.toNat % 4 ≠ 0 := by
  unfold misaligned
  have : (r.addr &&& 3#32).toNat = r.addr.toNat % 4 := by
    rw [BitVec.toNat_and]; exact Nat.and_two_pow_sub_one_eq_mod _ 2
  rw [bne_iff_ne, ← this]
  constructor
  · intro h h0; exact h (by apply BitVec.eq_of_toNat_eq; simpa using h0)
  · intro h h0; exact h (by rw [h0]; rfl)

theorem badLength_iff (r : Request) : badLength r = true ↔ r.count.toNat = 0 ∨ 8 < r.count.toNat := by
  unfold badLength
  simp only [Bool.or_eq_true, beq_iff_eq, decide_eq_true_eq]
  constructor
  · rintro (h | h)
    · left; rw [h]; rfl
    · exact .inr h
  · rintro (h | h)
    · left; apply BitVec.eq_of_toNat_eq; simpa using h
    · exact .inr h

/-- A request of sound form passes ALIGN and LENGTH (R7). -/
theorem classify_formSound {r : Request} (h : FormSound r) (mode : DeviceMode) (ws : Eight Window) :
    classify mode ws r = (match mode with
      | .bypass => .placed .bypassed
      | .active | .leaving =>
        match spanClass ws (requestWords r) with
        | none => .refused .span
        | some c => .placed c) := by
  have h1 : misaligned r = false := by
    rw [Bool.eq_false_iff]; intro hm; exact (misaligned_iff r).mp hm h.1
  have h2 : badLength r = false := by
    rw [Bool.eq_false_iff]; intro hm; have := (badLength_iff r).mp hm; have := h.2; omega
  cases mode <;> simp only [classify, h1, h2, Bool.false_eq_true, if_false] <;> rfl

/-- Outside BYPASS a request of sound form is placed by its words (R8). -/
theorem classify_active {r : Request} (h : FormSound r) {mode : DeviceMode} (hm : mode ≠ .bypass) (ws : Eight Window) :
    classify mode ws r = (match spanClass ws (requestWords r) with
      | none => .refused .span
      | some c => .placed c) := by
  rw [classify_formSound h]
  cases mode <;> simp_all

theorem covers_enabled {w : Window} {a : Addr} (h : w.covers a = true) : w.enabled = true := by
  simp only [Window.covers, Bool.and_eq_true] at h
  exact h.1.1

/-- With the windows apart, a word that a window covers is that window's (R2). -/
theorem windowOf_eq {s : State} (hw : WindowsApart s) {n : Fin 8} {a : Addr}
    (h : (s.windows.get n).covers a = true) : windowOf s.windows a = some n := by
  unfold windowOf
  cases hf : eight.find? (fun k => (s.windows.get k).covers a) with
  | none =>
    have := List.find?_eq_none.mp hf n (mem_eight n)
    exact absurd h this
  | some k =>
    have hk := List.find?_some hf
    by_cases hkn : k = n
    · rw [hkn]
    · exfalso
      have hm := hw.2 k n hkn (covers_enabled hk) (covers_enabled h)
      simp only [Window.covers, Bool.and_eq_true, decide_eq_true_eq] at h hk
      simp only [rangesMeet, Bool.and_eq_false_iff, decide_eq_false_iff_not] at hm
      omega

theorem windowOf_none {ws : Eight Window} {a : Addr} :
    windowOf ws a = none ↔ ∀ n : Fin 8, (ws.get n).covers a = false := by
  unfold windowOf
  rw [List.find?_eq_none]
  constructor
  · intro h n; simpa using h n (mem_eight n)
  · intro h n _; simp [h n]

theorem windowOf_covers {ws : Eight Window} {a : Addr} {n : Fin 8} (h : windowOf ws a = some n) :
    (ws.get n).covers a = true := by
  unfold windowOf at h
  exact List.find?_some (p := fun n => (ws.get n).covers a) h

/-- A request outside the windows is of class OUTSIDE (R8). -/
theorem spanClass_outside {s : State} {r : Request} (h : outsideAll s r = true) :
    spanClass s.windows (requestWords r) = some .outside := by
  simp only [outsideAll, List.all_eq_true] at h
  have h' : ∀ a ∈ requestWords r, windowOf s.windows a = none := fun a ha =>
    windowOf_none.mpr (fun n => by simpa using h a ha n (mem_eight n))
  cases hw : requestWords r with
  | nil => rfl
  | cons a rest =>
    rw [hw] at h'
    simp only [spanClass, h' a (by simp)]
    rw [if_pos]
    simp only [List.all_eq_true, beq_iff_eq]
    exact fun b hb => h' b (by simp [hb])

/-- A request inside one window is of that window's class (R8). -/
theorem spanClass_inside {s : State} (hw : WindowsApart s) {r : Request} (hf : FormSound r) {n : Fin 8}
    (h : insideOne s n r = true) : spanClass s.windows (requestWords r) = some (windowClass s.windows n) := by
  simp only [insideOne, List.all_eq_true] at h
  have h' : ∀ a ∈ requestWords r, windowOf s.windows a = some n := fun a ha => windowOf_eq hw (h a ha)
  cases hr : requestWords r with
  | nil =>
    have := requestWords_length r
    rw [hr] at this
    have := hf.2.1
    simp at *
    omega
  | cons a rest =>
    rw [hr] at h'
    simp only [spanClass, h' a (by simp)]
    rw [if_pos]
    simp only [List.all_eq_true, beq_iff_eq]
    exact fun b hb => h' b (by simp [hb])

/-- A request neither outside the windows nor inside one fails the SPAN check (R8). -/
theorem spanClass_straddles {s : State} {r : Request} (h0 : outsideAll s r = false)
    (h : ∀ n : Fin 8, insideOne s n r = false) : spanClass s.windows (requestWords r) = none := by
  simp only [outsideAll, insideOne] at h0 h
  cases hr : requestWords r with
  | nil => simp [hr] at h0
  | cons a rest =>
    rw [hr] at h0 h
    cases ha : windowOf s.windows a with
    | none =>
      simp only [spanClass, ha]
      rw [if_neg]
      intro hall
      simp only [List.all_eq_true, beq_iff_eq] at hall
      rw [Bool.eq_false_iff] at h0
      apply h0
      simp only [List.all_eq_true, Bool.not_eq_true']
      intro b hb n _
      rcases List.mem_cons.mp hb with rfl | hb
      · exact windowOf_none.mp ha n
      · exact windowOf_none.mp (hall b hb) n
    | some n =>
      simp only [spanClass, ha]
      rw [if_neg]
      intro hall
      simp only [List.all_eq_true, beq_iff_eq] at hall
      have hn := h n
      rw [Bool.eq_false_iff] at hn
      apply hn
      simp only [List.all_eq_true]
      intro b hb
      rcases List.mem_cons.mp hb with rfl | hb
      · exact windowOf_covers ha
      · exact windowOf_covers (hall b hb)

end Sys2Proof.Machine
end

