-- ==== Sys2Proof/Laws/Staging.lean ====
section
/-! SUPPORT. Admission (R24 to R27): the queue after a write is admitted, in closed form, and what follows from it. -/

namespace Sys2Proof.Machine

@[simp] theorem Entry.coalesce_group (b : Beat) (e : Entry) : (e.coalesce b).group = e.group := rfl
@[simp] theorem Entry.coalesce_role (b : Beat) (e : Entry) : (e.coalesce b).role = e.role := rfl
@[simp] theorem Entry.coalesce_addr (b : Beat) (e : Entry) : (e.coalesce b).addr = e.addr := rfl
@[simp] theorem Entry.coalesce_issue (b : Beat) (e : Entry) : (e.coalesce b).issue = e.issue := rfl
@[simp] theorem Entry.coalesce_at (b : Beat) (e : Entry) (g : Fin 4) (r : Role) (a : Addr) :
    (e.coalesce b).at g r a = e.at g r a := rfl
@[simp] theorem newEntry_at (g : Fin 4) (a : Addr) (b : Beat) (c : Addr) :
    (newEntry g a b).at g .opened c = (a == c) := by simp [Entry.at, newEntry]

/-- What the words of a write make of one old entry: the word at its address, if any, coalesces into it. -/
def touchedBy (g : Fin 4) (ws : List (Addr × Beat)) (e : Entry) : Entry :=
  match ws.find? (fun w => e.at g .opened w.1 && w.2.mask != LaneMask.none) with
  | some w => e.coalesce w.2
  | none => e

theorem touchedBy_key (g : Fin 4) (ws : List (Addr × Beat)) (e : Entry) :
    (touchedBy g ws e).group = e.group ∧ (touchedBy g ws e).role = e.role ∧ (touchedBy g ws e).addr = e.addr ∧
      (touchedBy g ws e).issue = e.issue := by
  unfold touchedBy
  split <;> exact ⟨rfl, rfl, rfl, rfl⟩

@[simp] theorem touchedBy_at (g : Fin 4) (ws : List (Addr × Beat)) (e : Entry) (h : Fin 4) (r : Role) (a : Addr) :
    (touchedBy g ws e).at h r a = e.at h r a := by
  obtain ⟨h1, h2, h3, _⟩ := touchedBy_key g ws e
  simp [Entry.at, h1, h2, h3]

/-- An entry that is not an OPEN entry of the group is not touched. -/
theorem touchedBy_other {g : Fin 4} {ws : List (Addr × Beat)} {e : Entry}
    (h : e.group ≠ g ∨ e.role ≠ .opened) : touchedBy g ws e = e := by
  have : ∀ w ∈ ws, ¬ (e.at g .opened w.1 && w.2.mask != LaneMask.none) = true := by
    intro w _
    rcases h with h | h <;> simp [Entry.at, h]
  simp [touchedBy, List.find?_eq_none.mpr this]

theorem openAt_map {g : Fin 4} {q : List Entry} {f : Entry → Entry} {a : Addr}
    (hf : ∀ e, (f e).at g .opened a = e.at g .opened a) : openAt (q.map f) g a = openAt q g a := by
  simp [openAt, List.any_map, Function.comp_def, hf]

/-- The queue after the words of a write, when no two of them share an address (R26). -/
theorem foldl_admitWord (g : Fin 4) (ws : List (Addr × Beat)) (q : List Entry)
    (hd : ws.Pairwise (fun v w => v.1 ≠ w.1)) :
    ws.foldl (admitWord g) q =
      q.map (touchedBy g ws) ++ (ws.filter (countsAsNeed q g)).map (fun w => newEntry g w.1 w.2) := by
  induction ws generalizing q with
  | nil =>
    have : touchedBy g [] = id := by funext e; rfl
    simp [this]
  | cons w ws ih =>
    obtain ⟨hw, hd'⟩ := List.pairwise_cons.mp hd
    rw [List.foldl_cons, ih _ hd']
    by_cases hm : w.2.mask = LaneMask.none
    · have h1 : admitWord g q w = q := by simp [admitWord, hm]
      have h2 : touchedBy g (w :: ws) = touchedBy g ws := by funext e; simp [touchedBy, hm]
      have h3 : countsAsNeed q g w = false := by simp [countsAsNeed, hm]
      rw [h1, h2, List.filter_cons_of_neg (by simp [h3])]
    · by_cases ho : openAt q g w.1 = true
      · have h1 : admitWord g q w = q.map (fun e => if e.at g .opened w.1 then e.coalesce w.2 else e) := by
          simp [admitWord, hm, ho]
        have hk : ∀ (e : Entry) (c : Addr), (if e.at g .opened w.1 then e.coalesce w.2 else e).at g .opened c = e.at g .opened c := by
          intro e c; split <;> simp
        have h3 : countsAsNeed q g w = false := by simp [countsAsNeed, ho]
        have h4 : countsAsNeed (admitWord g q w) g = countsAsNeed q g := by
          funext v; rw [h1]; simp only [countsAsNeed, openAt_map (fun e => hk e v.1)]
        rw [h4, List.filter_cons_of_neg (by simp [h3]), h1, List.map_map]
        congr 1
        apply List.map_congr_left
        intro e _
        simp only [Function.comp_apply]
        by_cases he : e.at g .opened w.1 = true
        · rw [if_pos he]
          have : ∀ v ∈ ws, ¬ ((e.coalesce w.2).at g .opened v.1 && v.2.mask != LaneMask.none) = true := by
            intro v hv
            have hne := hw v hv
            simp only [Entry.at, Bool.and_eq_true, beq_iff_eq] at he ⊢
            rintro ⟨⟨-, h⟩, -⟩
            exact hne (he.2.symm.trans h)
          simp only [touchedBy, List.find?_eq_none.mpr this, List.find?_cons, he, bne_iff_ne.mpr hm, Bool.and_self]
        · rw [if_neg he]
          simp only [touchedBy, List.find?_cons]
          simp only [Bool.not_eq_true] at he
          simp [he]
      · have h1 : admitWord g q w = q ++ [newEntry g w.1 w.2] := by simp [admitWord, hm, ho]
        have h3 : countsAsNeed q g w = true := by simp [countsAsNeed, ho, hm]
        have h4 : ∀ v ∈ ws, countsAsNeed (admitWord g q w) g v = countsAsNeed q g v := by
          intro v hv
          have hne := hw v hv
          rw [h1]
          have hb : (w.1 == v.1) = false := by simp [hne]
          simp [countsAsNeed, openAt, hb]
        have h5 : ws.filter (countsAsNeed (admitWord g q w) g) = ws.filter (countsAsNeed q g) :=
          List.filter_congr h4
        rw [h5, List.filter_cons_of_pos h3, h1, List.map_append, List.map_cons, List.map_cons, List.map_nil,
          List.append_assoc]
        have h6 : touchedBy g ws (newEntry g w.1 w.2) = newEntry g w.1 w.2 := by
          have : ∀ v ∈ ws, ¬ ((newEntry g w.1 w.2).at g .opened v.1 && v.2.mask != LaneMask.none) = true := by
            intro v hv
            have hne := hw v hv
            simp [hne]
          simp only [touchedBy, List.find?_eq_none.mpr this]
        have h7 : q.map (touchedBy g ws) = q.map (touchedBy g (w :: ws)) := by
          apply List.map_congr_left
          intro e he
          have : e.at g .opened w.1 = false := by
            rw [Bool.eq_false_iff]
            intro h
            exact ho (List.any_eq_true.mpr ⟨e, he, h⟩)
          simp [touchedBy, this]
        rw [h6, h7]
        rfl

/-- No two words of a request share an address (R7). -/
theorem requestWords_nodup (r : Request) : (requestWords r).Nodup := by
  unfold requestWords wordsFrom
  refine List.Nodup.map_on ?_ List.nodup_range
  intro i hi j hj h
  simp only [List.mem_range] at hi hj
  have hc := r.count.isLt
  have h' := congrArg (fun x : BitVec 32 => (x - r.addr).toNat) h
  have e : ∀ n : Nat, r.addr + BitVec.ofNat 32 n - r.addr = BitVec.ofNat 32 n := by
    intro n; rw [BitVec.add_comm, BitVec.add_sub_cancel]
  simp only [e, BitVec.toNat_ofNat] at h'
  omega

theorem requestBeats_distinct (r : Request) : (requestBeats r).Pairwise (fun v w => v.1 ≠ w.1) := by
  have h := requestWords_nodup r
  unfold requestBeats
  have sub : ∀ (l : List Addr) (m : List Beat), ((l.zip m).map Prod.fst).Sublist l := by
    intro l
    induction l with
    | nil => intro m; simp
    | cons a l ih =>
      intro m
      cases m with
      | nil => simp
      | cons b m => simpa using (ih m).cons_cons a
  exact List.pairwise_map.mp (h.sublist (sub _ _))

/-- The queue after an admission (R26): old entries in place, touched or not, then one new entry per word of the
*need*, in beat order. -/
theorem admitWords_eq (g : Fin 4) (r : Request) (q : List Entry) :
    admitWords g r q = q.map (touchedBy g (requestBeats r)) ++
      ((requestBeats r).filter (countsAsNeed q g)).map (fun w => newEntry g w.1 w.2) :=
  foldl_admitWord g _ q (requestBeats_distinct r)

/-- An admission makes the queue longer by the *need* (R24, R26). -/
@[simp] theorem admitWords_length (g : Fin 4) (r : Request) (q : List Entry) :
    (admitWords g r q).length = q.length + need q g r := by
  simp [admitWords_eq, need]

/-- The *open count* of the group rises by the *need*, and no other group changes (R26). -/
theorem admitWrite_groups (g : Fin 4) (r : Request) (s : State) : (admitWrite g r s).groups =
    s.groups.modify g (fun x => { x with openCount := x.openCount + need s.queue g r }) := by
  simp [admitWrite]

/-- Where an OPEN entry of the group is found after an admission (R26). -/
theorem admitWords_find (g : Fin 4) (r : Request) (q : List Entry) (a : Addr) :
    (admitWords g r q).find? (Entry.at g .opened a) =
      match q.find? (Entry.at g .opened a) with
      | some e => some (touchedBy g (requestBeats r) e)
      | none => ((requestBeats r).find? (fun w => w.1 == a && w.2.mask != LaneMask.none)).map
          (fun w => newEntry g w.1 w.2) := by
  rw [admitWords_eq, List.find?_append, List.find?_map]
  have h1 : (Entry.at g .opened a ∘ touchedBy g (requestBeats r)) = Entry.at g .opened a := by
    funext e; simp
  rw [h1]
  cases hq : q.find? (Entry.at g .opened a) with
  | some e => simp
  | none =>
    simp only [Option.map_none, Option.none_or]
    have hno : openAt q g a = false := by
      rw [Bool.eq_false_iff]
      intro h
      obtain ⟨e, he, hh⟩ := List.any_eq_true.mp h
      exact List.find?_eq_none.mp hq e he hh
    rw [List.find?_map, List.find?_filter]
    congr 1
    apply List.find?_congr
    intro w _
    by_cases hwa : w.1 = a
    · subst hwa
      by_cases hm : w.2.mask = LaneMask.none <;> simp [countsAsNeed, hno, hm]
    · simp [hwa]

/-- The write held for admission, when it fits, is admitted and answered; otherwise nothing is done (R31). -/
theorem retryAdmission_spec (s : State) :
    (s.held = none → retryAdmission s = s) ∧
    (∀ h, s.held = some h → h.cause ≠ .admission ∨ admissible s h.cls.group h.req = false → retryAdmission s = s) ∧
    (∀ h, s.held = some h → h.cause = .admission → admissible s h.cls.group h.req = true →
      retryAdmission s = (admitWrite h.cls.group h.req s).setHead .hp (.answered ⟨.ok, []⟩)) := by
  refine ⟨fun h => by simp [retryAdmission, h], fun h hh hc => ?_, fun h hh h1 h2 => by
    simp [retryAdmission, hh, h1, h2]⟩
  simp only [retryAdmission, hh]
  rw [if_neg]
  rintro ⟨h1, h2⟩
  rcases hc with hc | hc
  · exact hc h1
  · simp [hc] at h2

end Sys2Proof.Machine
end

