-- ==== Sys2Proof/Laws/Engine.lean ====
section
/-! SUPPORT. The commit engine: the start test, completions, and the ends of a hold, each with everything it can do. -/

namespace Sys2Proof.Machine

/-! ## The ends of a hold -/

@[simp] theorem setHead_hp_eq (ph : SlotPhase) (s : State) : s.setHead .hp ph = { s with hp := s.hp.setHead ph } := rfl
@[simp] theorem setHead_cp_eq (ph : SlotPhase) (s : State) : s.setHead .cp ph = { s with cp := s.cp.setHead ph } := rfl

/-- Releasing a hold moves the head of the Host Port or nothing (R36). -/
theorem releaseHeld_spec (g : Fin 4) (s : State) :
    (s.held = none → releaseHeld g s = s) ∧
    (∀ h, s.held = some h → h.cls.group ≠ g → releaseHeld g s = s) ∧
    (∀ h, s.held = some h → h.cls.group = g → releaseHeld g s = s.setHead .hp (.head h.cls .passThrough)) := by
  refine ⟨fun h => by simp [releaseHeld, h], fun h hh hg => by simp [releaseHeld, hh, hg], fun h hh hg => by
    simp [releaseHeld, hh, hg]⟩

/-- Converting a hold moves the head of the Host Port or nothing (R34). -/
theorem convertHold_spec (g : Fin 4) (s : State) :
    (s.held = none → convertHold g s = s) ∧
    (∀ h, s.held = some h → h.cls.group ≠ g → convertHold g s = s) ∧
    (∀ h, s.held = some h → h.cls.group = g →
      convertHold g s = s.setHead .hp (.head h.cls (.held .disable h.timer))) := by
  refine ⟨fun h => by simp [convertHold, h], fun h hh hg => by simp [convertHold, hh, hg], fun h hh hg => by
    simp [convertHold, hh, hg]⟩

/-- Both touch the Host Port alone. -/
theorem releaseHeld_eq (g : Fin 4) (s : State) : ∃ p, releaseHeld g s = { s with hp := p } := by
  unfold releaseHeld
  split
  · split
    · exact ⟨_, rfl⟩
    · exact ⟨s.hp, rfl⟩
  · exact ⟨s.hp, rfl⟩

theorem convertHold_eq (g : Fin 4) (s : State) : ∃ p, convertHold g s = { s with hp := p } := by
  unfold convertHold
  split
  · split
    · exact ⟨_, rfl⟩
    · exact ⟨s.hp, rfl⟩
  · exact ⟨s.hp, rfl⟩

/-- The check of LEAVING changes the mode and one flag, and that only when every group is DISABLED (R180). -/
theorem leavingCheck_spec (s : State) :
    (s.mode ≠ .leaving → leavingCheck s = s) ∧
    (allDisabled s.groups = false → leavingCheck s = s) ∧
    (s.mode = .leaving → allDisabled s.groups = true →
      leavingCheck s = { s with mode := .bypass, events := s.events.cause .bypassReached }) := by
  refine ⟨fun h => by simp [leavingCheck, h], fun h => by simp [leavingCheck, h], fun h h' => by
    simp [leavingCheck, h, h']⟩

theorem leavingCheck_eq (s : State) : ∃ m e, leavingCheck s = { s with mode := m, events := e } := by
  unfold leavingCheck
  split
  · exact ⟨_, _, rfl⟩
  · exact ⟨s.mode, s.events, rfl⟩

/-- Reaching DISABLED touches the group's state, the Host Port, the mode and the flags alone (R18, R36, R180). -/
theorem reachDisabled_eq (g : Fin 4) (s : State) : ∃ p m e, reachDisabled g s =
    { s with groups := s.groups.modify g (fun x => { x with state := .disabled }), hp := p, mode := m, events := e } := by
  unfold reachDisabled
  obtain ⟨p, hp⟩ := releaseHeld_eq g (s.modGroup g (fun x => { x with state := .disabled }))
  rw [hp]
  obtain ⟨m, e, he⟩ := leavingCheck_eq { (s.modGroup g (fun x => { x with state := .disabled })) with hp := p }
  exact ⟨p, m, e, he⟩

/-! ## The start test -/

/-- What bounds the starts of one start test: each takes a group from the queue, and a final seal, which puts one back,
empties an open epoch. -/
def startMeasure (s : State) : Nat :=
  s.commitReq.length + (four.filter (fun g => decide (0 < (s.group g).openCount))).length

theorem startMeasure_le (s : State) : startMeasure s ≤ s.commitReq.length + 4 := by
  have := List.length_filter_le (fun g => decide (0 < (s.group g).openCount)) four
  simp only [startMeasure]
  have h4 : four.length = 4 := rfl
  omega

theorem startMeasure_of {s : State} {n : Nat} {f : Fin 4 → Nat} (h1 : s.commitReq.length = n)
    (h2 : ∀ i, (s.group i).openCount = f i) :
    startMeasure s = n + (four.filter (fun i => decide (0 < f i))).length := by
  have h3 : (fun i => decide (0 < (s.group i).openCount)) = fun i => decide (0 < f i) := by funext i; rw [h2]
  unfold startMeasure
  rw [h1, h3]

theorem filter_lt_of_turn {l : List (Fin 4)} {p q : Fin 4 → Bool} {g : Fin 4} (hg : g ∈ l) (h1 : p g = true)
    (h2 : q g = false) (hpq : ∀ i, q i = true → p i = true) : (l.filter q).length < (l.filter p).length := by
  induction l with
  | nil => cases hg
  | cons a l ih =>
    have hle : (l.filter q).length ≤ (l.filter p).length := by
      clear ih hg
      induction l with
      | nil => simp
      | cons b l ih =>
        simp only [List.filter_cons]
        cases hq : q b
        · cases p b <;> simp <;> omega
        · simp [hpq b hq]; omega
    rcases List.mem_cons.mp hg with rfl | hm
    · simp only [List.filter_cons, h1, h2]; simp; omega
    · have := ih hm
      simp only [List.filter_cons]
      cases hq : q a
      · cases p a <;> simp <;> omega
      · simp [hpq a hq]; omega

/-- After a completion at its start the measure is smaller. -/
theorem startMeasure_finish {s : State} {g : Fin 4} {rest : List (Fin 4)} (hq : s.commitReq = g :: rest) :
    startMeasure (finishDrain g (beginDrain g rest s)) < startMeasure s := by
  have hc : ∀ i, ((completeCore g (beginDrain g rest s)).group i).openCount = (s.group i).openCount := by
    intro i
    simp only [State.group, completeCore_groups, beginDrain_groups, Four.get_modify]
    split
    · subst_vars; rfl
    · rfl
  unfold finishDrain completeStopping
  split
  · split
    next ho =>
      rw [hc] at ho
      have h1 : (sealCore g (completeCore g (beginDrain g rest s))).commitReq = rest ++ [g] := by simp
      have h2 : ∀ i, ((sealCore g (completeCore g (beginDrain g rest s))).group i).openCount =
          if i = g then 0 else (s.group i).openCount := by
        intro i
        have := hc i
        simp only [State.group, sealCore_groups, Four.get_modify] at this ⊢
        split
        · rfl
        · exact this
      rw [startMeasure_of (by rw [h1, List.length_append]) h2, startMeasure_of (by rw [hq]) (fun i => rfl)]
      have := filter_lt_of_turn (l := four) (p := fun i => decide (0 < (s.group i).openCount))
        (q := fun i => decide (0 < if i = g then 0 else (s.group i).openCount)) (mem_four g) (by simpa using ho)
        (by simp) (by intro i; by_cases h : i = g <;> simp [h])
      simp only [List.length_cons, List.length_nil]
      omega
    next ho =>
      obtain ⟨p, m, e, he⟩ := reachDisabled_eq g (completeCore g (beginDrain g rest s))
      have h1 : (reachDisabled g (completeCore g (beginDrain g rest s))).commitReq = rest := by rw [he]; simp
      have h2 : ∀ i, ((reachDisabled g (completeCore g (beginDrain g rest s))).group i).openCount =
          (s.group i).openCount := by
        intro i
        have := hc i
        rw [he]
        simp only [State.group, Four.get_modify] at this ⊢
        split
        · subst_vars; exact this
        · exact this
      rw [startMeasure_of (n := rest.length) (by rw [h1]) h2, startMeasure_of (by rw [hq]) (fun i => rfl)]
      simp only [List.length_cons]
      omega
  · rw [startMeasure_of (n := rest.length) (by simp) hc, startMeasure_of (by rw [hq]) (fun i => rfl)]
    simp only [List.length_cons]
    omega

/-- Above the measure the bound on the number of starts does not matter. -/
theorem startTest_enough (n m : Nat) (s : State) (hn : startMeasure s < n) (hm : startMeasure s < m) :
    startTest n s = startTest m s := by
  induction n generalizing m s with
  | zero => omega
  | succ n ih =>
    cases m with
    | zero => omega
    | succ m =>
      simp only [startTest]
      split
      next g rest he hq =>
        split
        · rfl
        · split
          · have := startMeasure_finish hq
            exact ih m _ (by omega) (by omega)
          · rfl
      · rfl
      · rfl

theorem startTest_succ (n : Nat) (s : State) : startTest (n + 1) s =
    match s.engine.state, s.commitReq with
    | .idle, g :: rest =>
      if s.chold then s
      else if drainDone g (beginDrain g rest s) then startTest n (finishDrain g (beginDrain g rest s))
      else beginDrain g rest s
    | _, _ => s := by
  simp only [startTest]
  cases s.engine.state <;> cases s.commitReq <;> rfl

/-- Everything a start test can do (R63): nothing; a start; or, for an epoch with nothing to write, a start, its
completion, and the start test that follows it. -/
theorem testStart_eq (s : State) : testStart s =
    match s.engine.state, s.commitReq with
    | .idle, g :: rest =>
      if s.chold then s
      else if drainDone g (beginDrain g rest s) then testStart (finishDrain g (beginDrain g rest s))
      else beginDrain g rest s
    | _, _ => s := by
  have h0 : testStart s = startTest (s.commitReq.length + 4 + 1) s := rfl
  rw [h0, startTest_succ]
  cases he : s.engine.state with
  | draining g => rfl
  | idle =>
    cases hq : s.commitReq with
    | nil => rfl
    | cons g rest =>
      dsimp only
      have h1 := startMeasure_finish hq
      have h2 := startMeasure_le s
      have h3 := startMeasure_le (finishDrain g (beginDrain g rest s))
      have h4 : s.commitReq.length = rest.length + 1 := by rw [hq]; rfl
      have h5 : startTest ((g :: rest).length + 4) (finishDrain g (beginDrain g rest s)) =
          testStart (finishDrain g (beginDrain g rest s)) :=
        startTest_enough _ _ _ (by simp only [List.length_cons]; omega) (by omega)
      rw [h5]

/-- Nothing starts while a drain is in progress, with an empty queue, or while CHOLD is asserted (R63, R64). -/
theorem testStart_none {s : State} (h : s.engine.state ≠ .idle ∨ s.commitReq = [] ∨ s.chold = true) :
    testStart s = s := by
  rw [testStart_eq]
  rcases h with h | h | h
  · cases he : s.engine.state with
    | idle => exact absurd he h
    | draining g => rfl
  · rw [h]; split <;> simp_all
  · split
    · simp [h]
    · rfl

/-- The head group's drain starts when its epoch has an entry to write (R63). -/
theorem testStart_begins {s : State} {g : Fin 4} {rest : List (Fin 4)} (he : s.engine.state = .idle)
    (hq : s.commitReq = g :: rest) (hc : s.chold = false) (hs : hasSealedEntry s.queue g = true) :
    testStart s = beginDrain g rest s := by
  rw [testStart_eq]
  simp [he, hq, hc, drainDone, hs]

/-- An epoch with nothing to write completes at its start (R63). -/
theorem testStart_completes {s : State} {g : Fin 4} {rest : List (Fin 4)} (he : s.engine.state = .idle)
    (hq : s.commitReq = g :: rest) (hc : s.chold = false) (hs : hasSealedEntry s.queue g = false)
    (hw : writeOutstanding s.issue g = false) : testStart s = testStart (finishDrain g (beginDrain g rest s)) := by
  conv => lhs; rw [testStart_eq]
  simp [he, hq, hc, drainDone, hs, hw]

/-- The completion test (R73): nothing, or the completion and the start test that follows it. -/
theorem testCompletion_spec (s : State) :
    (s.engine.state = .idle → testCompletion s = s) ∧
    (∀ g, s.engine.state = .draining g → drainDone g s = false → testCompletion s = s) ∧
    (∀ g, s.engine.state = .draining g → drainDone g s = true → testCompletion s = testStart (finishDrain g s)) := by
  refine ⟨fun h => by simp [testCompletion, h], fun g h h' => by simp [testCompletion, h, h'], fun g h h' => by
    simp [testCompletion, h, h']⟩

/-- Step 5 of a completion (R58, R74): nothing for a group that is not STOPPING, its final seal when its open epoch holds
entries, DISABLED when it holds none. -/
theorem completeStopping_spec (g : Fin 4) (s : State) :
    ((s.group g).state ≠ .stopping → completeStopping g s = s) ∧
    ((s.group g).state = .stopping → 0 < (s.group g).openCount → completeStopping g s = sealCore g s) ∧
    ((s.group g).state = .stopping → (s.group g).openCount = 0 → completeStopping g s = reachDisabled g s) := by
  refine ⟨fun h => by simp [completeStopping, h], fun h h' => by simp [completeStopping, h, h'], fun h h' => by
    simp [completeStopping, h, h']⟩

end Sys2Proof.Machine
end

