-- ==== Sys2Proof/Laws/Link.lean ====
section
/-! SUPPORT. The management link: when a request is taken and what taking it does, and the codes a PUT carries. -/

namespace Sys2Proof.Machine

@[simp] theorem replied_eq_startReply (bytes : List Byte) (t : State) : replied bytes t = startReply bytes t := rfl

/-- A ready request with a correct CRC byte is taken (R167): the whole of what `requestArrives` does then. -/
theorem requestArrives_ready {s : State} {body : List Byte} {crc : Byte} (op : State → Taken)
    (h : RequestReady s body crc) : requestArrives body crc op s = startReply (op s).reply.bytes (op s).state := by
  obtain ⟨h1, h2, h3⟩ := h
  simp [requestArrives, takeRequest, h1, h2, h3]

/-- A ready request with a wrong CRC byte is answered CRC and sets MGMT_ERROR (R167). -/
theorem requestArrives_badCrc {s : State} {body : List Byte} {crc : Byte} (op : State → Taken)
    (h1 : s.mgmt.phase = .request) (h2 : s.mgmt.received.isPrefixOf body = true) (h3 : crc8 body ≠ crc) :
    requestArrives body crc op s = startReply [0xC6] (s.cause .mgmtError) := by
  simp [requestArrives, takeRequest, h1, h2, h3, Status.code]

/-- Everything `requestArrives` can do: nothing, the answer CRC, or the request's own effect and reply. -/
theorem requestArrives_cases (s : State) (body : List Byte) (crc : Byte) (op : State → Taken) :
    (¬ (s.mgmt.phase = .request ∧ s.mgmt.received.isPrefixOf body = true) ∧ requestArrives body crc op s = s) ∨
    (s.mgmt.phase = .request ∧ crc8 body ≠ crc ∧
      requestArrives body crc op s = startReply [0xC6] (s.cause .mgmtError)) ∨
    (RequestReady s body crc ∧ requestArrives body crc op s = startReply (op s).reply.bytes (op s).state) := by
  by_cases h : s.mgmt.phase = .request ∧ s.mgmt.received.isPrefixOf body = true
  · by_cases hc : crc8 body = crc
    · exact .inr (.inr ⟨⟨h.1, h.2, hc⟩, requestArrives_ready op ⟨h.1, h.2, hc⟩⟩)
    · exact .inr (.inl ⟨h.1, hc, requestArrives_badCrc op h.1 h.2 hc⟩)
  · exact .inl ⟨h, by simp only [requestArrives, if_neg h]⟩

@[simp] theorem refuse_state (st : Status) (s : State) : (refuse st s).state = s := rfl
@[simp] theorem refuse_bytes (st : Status) (s : State) : (refuse st s).reply.bytes = [st.code] := rfl
@[simp] theorem done_state (s : State) : (done s).state = s := rfl
@[simp] theorem done_bytes (s : State) : (done s).reply.bytes = [0xC0] := rfl

/-- A number in range is read; another is none. -/
theorem index4_eq (b : Byte) : index4 b = if h : b.toNat < 4 then some ⟨b.toNat, h⟩ else none := rfl

@[simp] theorem index4_ofNat (g : Fin 4) : index4 (BitVec.ofNat 8 g.val) = some g := by
  fin_cases g <;> decide

theorem index4_none {b : Byte} (h : 3 < b.toNat) : index4 b = none := by
  simp [index4]; omega

/-- An action on a group or timer whose number is in range is that group's or timer's action (R175). -/
@[simp] theorem withIndex_ofNat (g : Fin 4) (f : Fin 4 → State → Taken) (s : State) :
    withIndex (BitVec.ofNat 8 g.val) f s = f g s := by
  simp [withIndex]

/-- An action on a group or timer whose number is above 3 is refused (R175). -/
theorem withIndex_none {b : Byte} (h : 3 < b.toNat) (f : Fin 4 → State → Taken) (s : State) :
    withIndex b f s = refuse .badValue s := by
  simp [withIndex, index4_none h]

end Sys2Proof.Machine
end

