-- ==== Sys2Proof/Laws/Monitors.lean ====
section
/-! SUPPORT. The access monitors: what `observe` changes and what it leaves (R143, R146, R149). -/

namespace Sys2Proof.Machine

/-- An access seen by the monitors changes the monitors and the flags alone. -/
theorem observe_frame {β : Type} (f : State → β) (hf : ∀ s m e, f { s with monitors := m, events := e } = f s)
    (stream : Requester) (k : Kind) (words : List Addr) (s : State) : f (observe stream k words s) = f s := by
  unfold observe
  have h : ∀ (l : List (Fin 4)) (s : State), f (l.foldl (seenBy stream k words) s) = f s := by
    intro l
    induction l with
    | nil => intro s; rfl
    | cons a l ih =>
      intro s
      rw [List.foldl_cons, ih]
      unfold seenBy
      split
      · rfl
      · exact hf s _ _
  exact h _ _

@[simp] theorem observe_inReset (stream : Requester) (k : Kind) (words : List Addr) (s : State) :
    (observe stream k words s).inReset = s.inReset := observe_frame State.inReset (fun _ _ _ => rfl) _ _ _ _

@[simp] theorem observe_mode (stream : Requester) (k : Kind) (words : List Addr) (s : State) :
    (observe stream k words s).mode = s.mode := observe_frame State.mode (fun _ _ _ => rfl) _ _ _ _

@[simp] theorem observe_chold (stream : Requester) (k : Kind) (words : List Addr) (s : State) :
    (observe stream k words s).chold = s.chold := observe_frame State.chold (fun _ _ _ => rfl) _ _ _ _

@[simp] theorem observe_syncLine (stream : Requester) (k : Kind) (words : List Addr) (s : State) :
    (observe stream k words s).syncLine = s.syncLine := observe_frame State.syncLine (fun _ _ _ => rfl) _ _ _ _

@[simp] theorem observe_syncRef (stream : Requester) (k : Kind) (words : List Addr) (s : State) :
    (observe stream k words s).syncRef = s.syncRef := observe_frame State.syncRef (fun _ _ _ => rfl) _ _ _ _

@[simp] theorem observe_tick (stream : Requester) (k : Kind) (words : List Addr) (s : State) :
    (observe stream k words s).tick = s.tick := observe_frame State.tick (fun _ _ _ => rfl) _ _ _ _

@[simp] theorem observe_windows (stream : Requester) (k : Kind) (words : List Addr) (s : State) :
    (observe stream k words s).windows = s.windows := observe_frame State.windows (fun _ _ _ => rfl) _ _ _ _

@[simp] theorem observe_groups (stream : Requester) (k : Kind) (words : List Addr) (s : State) :
    (observe stream k words s).groups = s.groups := observe_frame State.groups (fun _ _ _ => rfl) _ _ _ _

@[simp] theorem observe_queue (stream : Requester) (k : Kind) (words : List Addr) (s : State) :
    (observe stream k words s).queue = s.queue := observe_frame State.queue (fun _ _ _ => rfl) _ _ _ _

@[simp] theorem observe_commitReq (stream : Requester) (k : Kind) (words : List Addr) (s : State) :
    (observe stream k words s).commitReq = s.commitReq := observe_frame State.commitReq (fun _ _ _ => rfl) _ _ _ _

@[simp] theorem observe_engine (stream : Requester) (k : Kind) (words : List Addr) (s : State) :
    (observe stream k words s).engine = s.engine := observe_frame State.engine (fun _ _ _ => rfl) _ _ _ _

@[simp] theorem observe_hp (stream : Requester) (k : Kind) (words : List Addr) (s : State) :
    (observe stream k words s).hp = s.hp := observe_frame State.hp (fun _ _ _ => rfl) _ _ _ _

@[simp] theorem observe_cp (stream : Requester) (k : Kind) (words : List Addr) (s : State) :
    (observe stream k words s).cp = s.cp := observe_frame State.cp (fun _ _ _ => rfl) _ _ _ _

@[simp] theorem observe_issue (stream : Requester) (k : Kind) (words : List Addr) (s : State) :
    (observe stream k words s).issue = s.issue := observe_frame State.issue (fun _ _ _ => rfl) _ _ _ _

@[simp] theorem observe_pointer (stream : Requester) (k : Kind) (words : List Addr) (s : State) :
    (observe stream k words s).pointer = s.pointer := observe_frame State.pointer (fun _ _ _ => rfl) _ _ _ _

@[simp] theorem observe_timers (stream : Requester) (k : Kind) (words : List Addr) (s : State) :
    (observe stream k words s).timers = s.timers := observe_frame State.timers (fun _ _ _ => rfl) _ _ _ _

@[simp] theorem observe_lines (stream : Requester) (k : Kind) (words : List Addr) (s : State) :
    (observe stream k words s).lines = s.lines := observe_frame State.lines (fun _ _ _ => rfl) _ _ _ _

@[simp] theorem observe_mgmt (stream : Requester) (k : Kind) (words : List Addr) (s : State) :
    (observe stream k words s).mgmt = s.mgmt := observe_frame State.mgmt (fun _ _ _ => rfl) _ _ _ _

@[simp] theorem observe_freeIndex (stream : Requester) (k : Kind) (words : List Addr) (s : State) :
    (observe stream k words s).freeIndex = s.freeIndex := observe_frame State.freeIndex (fun _ _ _ => rfl) _ _ _ _

@[simp] theorem observe_pending (stream : Requester) (k : Kind) (words : List Addr) (s : State) :
    (observe stream k words s).pending = s.pending := observe_frame State.pending (fun _ _ _ => rfl) _ _ _ _

@[simp] theorem observe_group (stream : Requester) (k : Kind) (words : List Addr) (s : State) (g : Fin 4) :
    (observe stream k words s).group g = s.group g := by
  simp [State.group]

@[simp] theorem observe_timer (stream : Requester) (k : Kind) (words : List Addr) (s : State) (g : Fin 4) :
    (observe stream k words s).timer g = s.timer g := by
  simp [State.timer]

@[simp] theorem observe_port (stream : Requester) (k : Kind) (words : List Addr) (s : State) (p : PortId) :
    (observe stream k words s).port p = s.port p := by
  cases p <;> simp [State.port]

@[simp] theorem observe_held (stream : Requester) (k : Kind) (words : List Addr) (s : State) :
    (observe stream k words s).held = s.held := by
  simp [State.held]

/-- The bit of a flag in the word of a flag. -/
theorem EventFlag.word_bit (f k : EventFlag) : k.word.getLsbD f.bit = decide (f = k) := by
  rcases f with g | g | g | g | g | g | _ | _ | _ | _ | _ | _ <;>
    rcases k with h | h | h | h | h | h | _ | _ | _ | _ | _ | _ <;> decide +revert

/-- Taking a cause sets that flag alone (R159). -/
@[simp] theorem EventBlock.isSet_cause (e : EventBlock) (f k : EventFlag) :
    (e.cause k).isSet f = (e.isSet f || decide (f = k)) := by
  simp [EventBlock.isSet, EventBlock.cause, EventFlag.word_bit]

@[simp] theorem EventBlock.enable_cause (e : EventBlock) (k : EventFlag) : (e.cause k).enable = e.enable := rfl

/-- Taking a cause makes the *frame mark* of that flag alone yes (R159). -/
@[simp] theorem EventBlock.mark_cause (e : EventBlock) (f k : EventFlag) :
    (e.cause k).mark.getLsbD f.bit = (e.mark.getLsbD f.bit || decide (f = k)) := by
  simp [EventBlock.cause, EventFlag.word_bit]

/-- What a list of causes makes of the values, or of the *frame marks*: of any reading that each cause makes true of its
own flag alone. -/
theorem EventBlock.causes_reads {rd : EventBlock → EventFlag → Bool}
    (h : ∀ (e : EventBlock) (f k : EventFlag), rd (e.cause k) f = (rd e f || decide (f = k)))
    (l : List EventFlag) (e : EventBlock) (f : EventFlag) : rd (e.causes l) f = (rd e f || l.contains f) := by
  unfold EventBlock.causes
  induction l generalizing e with
  | nil => simp
  | cons a l ih => rw [List.foldl_cons, ih, h, List.contains_cons, Bool.or_assoc, beq_eq_decide]

theorem EventBlock.enable_causes (l : List EventFlag) (e : EventBlock) : (e.causes l).enable = e.enable := by
  unfold EventBlock.causes
  induction l generalizing e with
  | nil => rfl
  | cons a l ih => rw [List.foldl_cons, ih, EventBlock.enable_cause]

/-- What one monitor makes of an access (R143, R146, R147). -/
theorem seenBy_spec (stream : Requester) (k : Kind) (words : List Addr) (s : State) (m : Fin 4) :
    ((s.monitors.get m).cfg.spots stream k words = none → seenBy stream k words s m = s) ∧
    (∀ a, (s.monitors.get m).cfg.spots stream k words = some a → seenBy stream k words s m = { s with
      monitors := s.monitors.set m ((s.monitors.get m).hit
        ⟨true, stream, k, a, (s.timer (s.monitors.get m).cfg.stamp).counter,
          (s.group (s.monitors.get m).cfg.stamp).openEpoch⟩)
      events := s.events.causes
        (if (s.monitors.get m).capture.full then [.hit m, .captureOverwrite] else [.hit m]) }) := by
  refine ⟨fun h => by simp [seenBy, h], fun a h => by simp [seenBy, h]⟩

/-- The state after the monitors `l` have seen an access, one after another: the monitors not in `l`, and those the
access does not hit, are as they were; a monitor of `l` that it hits has taken the hit. -/
theorem observe_monitor (stream : Requester) (k : Kind) (words : List Addr) (s : State) (m : Fin 4) :
    (observe stream k words s).monitors.get m =
      match (s.monitors.get m).cfg.spots stream k words with
      | none => s.monitors.get m
      | some a => (s.monitors.get m).hit ⟨true, stream, k, a, (s.timer (s.monitors.get m).cfg.stamp).counter,
          (s.group (s.monitors.get m).cfg.stamp).openEpoch⟩ := by
  have other : ∀ (s : State) (i j : Fin 4), j ≠ i →
      (seenBy stream k words s i).monitors.get j = s.monitors.get j := by
    intro s i j hij
    unfold seenBy
    split
    · rfl
    · simp [hij]
  have own : ∀ (s : State) (i : Fin 4), (seenBy stream k words s i).monitors.get i =
      match (s.monitors.get i).cfg.spots stream k words with
      | none => s.monitors.get i
      | some a => (s.monitors.get i).hit ⟨true, stream, k, a, (s.timer (s.monitors.get i).cfg.stamp).counter,
          (s.group (s.monitors.get i).cfg.stamp).openEpoch⟩ := by
    intro s i
    unfold seenBy
    split <;> simp_all
  have tim : ∀ (s : State) (i j : Fin 4), (seenBy stream k words s i).timer j = s.timer j := by
    intro s i j; unfold seenBy; split <;> rfl
  have grp : ∀ (s : State) (i j : Fin 4), (seenBy stream k words s i).group j = s.group j := by
    intro s i j; unfold seenBy; split <;> rfl
  simp only [observe, four, List.foldl_cons, List.foldl_nil]
  fin_cases m <;> simp [other, own, tim, grp]

/-- The values, or the *frame marks*, after an access (R146, R147, R159): true of HIT_Mm of each monitor it hits, and of
CAPTURE_OVERWRITE when one of their records was full. -/
theorem observe_reads {rd : EventBlock → EventFlag → Bool}
    (hrd : ∀ (e : EventBlock) (f k : EventFlag), rd (e.cause k) f = (rd e f || decide (f = k)))
    (stream : Requester) (k : Kind) (words : List Addr) (s : State) (f : EventFlag) :
    rd (observe stream k words s).events f = (rd s.events f || four.any (fun m =>
      ((s.monitors.get m).cfg.spots stream k words).isSome &&
        (decide (f = .hit m) || ((s.monitors.get m).capture.full && decide (f = .captureOverwrite))))) := by
  have other : ∀ (s : State) (i j : Fin 4), j ≠ i →
      (seenBy stream k words s i).monitors.get j = s.monitors.get j := by
    intro s i j hij
    unfold seenBy
    split
    · rfl
    · simp [hij]
  have own : ∀ (s : State) (i : Fin 4), rd (seenBy stream k words s i).events f =
      (rd s.events f || (((s.monitors.get i).cfg.spots stream k words).isSome &&
        (decide (f = .hit i) || ((s.monitors.get i).capture.full && decide (f = .captureOverwrite))))) := by
    intro s i
    unfold seenBy
    split
    next h => simp [h]
    next a h =>
      cases hc : (s.monitors.get i).capture.full <;>
        simp [h, hc, EventBlock.causes_reads hrd]
  simp only [observe, four, List.foldl_cons, List.foldl_nil]
  simp [other, own, Bool.or_assoc]

theorem observe_isSet (stream : Requester) (k : Kind) (words : List Addr) (s : State) (f : EventFlag) :
    (observe stream k words s).events.isSet f = (s.events.isSet f || four.any (fun m =>
      ((s.monitors.get m).cfg.spots stream k words).isSome &&
        (decide (f = .hit m) || ((s.monitors.get m).capture.full && decide (f = .captureOverwrite))))) :=
  observe_reads EventBlock.isSet_cause stream k words s f

theorem observe_mark (stream : Requester) (k : Kind) (words : List Addr) (s : State) (f : EventFlag) :
    (observe stream k words s).events.mark.getLsbD f.bit = (s.events.mark.getLsbD f.bit || four.any (fun m =>
      ((s.monitors.get m).cfg.spots stream k words).isSome &&
        (decide (f = .hit m) || ((s.monitors.get m).capture.full && decide (f = .captureOverwrite))))) :=
  observe_reads (rd := fun e f => e.mark.getLsbD f.bit) EventBlock.mark_cause stream k words s f

@[simp] theorem observe_enable (stream : Requester) (k : Kind) (words : List Addr) (s : State) :
    (observe stream k words s).events.enable = s.events.enable := by
  unfold observe
  have h : ∀ (l : List (Fin 4)) (s : State),
      (l.foldl (seenBy stream k words) s).events.enable = s.events.enable := by
    intro l
    induction l with
    | nil => intro s; rfl
    | cons a l ih =>
      intro s
      rw [List.foldl_cons, ih]
      unfold seenBy
      split
      · rfl
      · exact EventBlock.enable_causes _ _
  exact h _ _

end Sys2Proof.Machine
end

