-- ==== Sys2Proof/Laws/PerInstr.lean ====
section
/-! SUPPORT. The length law, one lemma for each command: the request bytes of a well-formed management command are as
many as its command byte and its number byte fix (R165, R172); a command that is no management request has none. -/

namespace Sys2Proof.Laws.RequestLength

/-- The bytes a command encodes to begin with a command byte and a number byte, and are as many as those two fix. -/
def Statement (c : Instr) : Prop :=
  c.wf = true → ∀ bytes : List Byte, encodeRequest c = some bytes →
    ∃ (cmd num : Byte) (rest : List Byte), bytes = cmd :: num :: rest ∧ bytes.length = requestLength cmd num

/-- A command without request bytes. -/
theorem of_none {c : Instr} (h : c.requestBody = none) : Statement c := by
  intro _ bytes hb
  simp [encodeRequest, h] at hb

/-- A command whose body is written out. -/
theorem of_body {c : Instr} {cmd num : Byte} {rest : List Byte} (h : c.requestBody = some (cmd :: num :: rest))
    (hl : rest.length + 3 = requestLength cmd num) : Statement c := by
  intro _ bytes hb
  simp only [encodeRequest, h, Option.map_some, Option.some.injEq] at hb
  subst hb
  exact ⟨cmd, num, rest ++ [c.requestCrc], rfl, by simp; omega⟩

/-- A PUT body of a known object. -/
theorem put_length (o : Obj) : requestLength cmdPut o.number = 3 + o.length := by
  have h : Obj.ofNumber o.number = some o := by
    cases o with
    | ident | device | queueStat | events | eventEn => decide
    | window n => revert n; decide
    | groupCfg n | groupStat n | fault n | timerCfg n | timerStat n | monCfg n | capture n | monCount n | cmtCfg n =>
      revert n; decide
  simp [requestLength, h]

theorem powerOn : Statement .powerOn := of_none rfl
theorem rstnAssert : Statement .rstnAssert := of_none rfl
theorem rstnRelease : Statement .rstnRelease := of_none rfl
theorem requestAccept (p : PortId) (r : Request) : Statement (.requestAccept p r) := of_none rfl
theorem headProcessing (p : PortId) : Statement (.headProcessing p) := of_none rfl
theorem memoryGrant : Statement .memoryGrant := of_none rfl
theorem memoryAnswer (a : AnswerStatus) (data : List Word) : Statement (.memoryAnswer a data) := of_none rfl
theorem drainStart : Statement .drainStart := of_none rfl
theorem responseDelivery (p : PortId) : Statement (.responseDelivery p) := of_none rfl
theorem holdTimerExpiry : Statement .holdTimerExpiry := of_none rfl
theorem serviceTick (order : List TickSink) : Statement (.serviceTick order) := of_none rfl
theorem timerStep (t : Fin 4) : Statement (.timerStep t) := of_none rfl
theorem pulseEnd (g : Fin 4) : Statement (.pulseEnd g) := of_none rfl
theorem syncTransition (t : Fin 4) (level : Bool) : Statement (.syncTransition t level) := of_none rfl
theorem choldChange (asserted : Bool) : Statement (.choldChange asserted) := of_none rfl
theorem frameStart : Statement .frameStart := of_none rfl
theorem frameEnd : Statement .frameEnd := of_none rfl
theorem requestByteReceived (b : Byte) : Statement (.requestByteReceived b) := of_none rfl

theorem get (o : Obj) (crc : Byte) : Statement (.get o crc) := of_body rfl rfl
theorem getCapture (m : Fin 4) (crc : Byte) : Statement (.getCapture m crc) := of_body rfl rfl

theorem putDevice (v : DeviceRaw) (crc : Byte) : Statement (.putDevice v crc) :=
  of_body rfl (put_length .device).symm
theorem putEvents (v : BitVec 32) (crc : Byte) : Statement (.putEvents v crc) :=
  of_body rfl (put_length .events).symm
theorem putEventEn (v : BitVec 32) (crc : Byte) : Statement (.putEventEn v crc) :=
  of_body rfl (put_length .eventEn).symm
theorem putWindow (n : Fin 8) (v : WindowRaw) (crc : Byte) : Statement (.putWindow n v crc) :=
  of_body rfl (put_length (.window n)).symm
theorem putGroupCfg (g : Fin 4) (v : GroupCfgRaw) (crc : Byte) : Statement (.putGroupCfg g v crc) :=
  of_body rfl (put_length (.groupCfg g)).symm
theorem putTimerCfg (t : Fin 4) (v : TimerCfgRaw) (crc : Byte) : Statement (.putTimerCfg t v crc) :=
  of_body rfl (put_length (.timerCfg t)).symm
theorem putMonCfg (m : Fin 4) (v : MonCfgRaw) (crc : Byte) : Statement (.putMonCfg m v crc) :=
  of_body rfl (put_length (.monCfg m)).symm
theorem putCmtCfg (g : Fin 4) (v : CmtCfgRaw) (crc : Byte) : Statement (.putCmtCfg g v crc) :=
  of_body rfl (put_length (.cmtCfg g)).symm

theorem activate (arg crc : Byte) : Statement (.activate arg crc) := of_body rfl rfl
theorem bypass (arg crc : Byte) : Statement (.bypass arg crc) := of_body rfl rfl
theorem softReset (arg crc : Byte) : Statement (.softReset arg crc) := of_body rfl rfl
theorem enableGroup (arg crc : Byte) : Statement (.enableGroup arg crc) := of_body rfl rfl
theorem disableGroup (arg crc : Byte) : Statement (.disableGroup arg crc) := of_body rfl rfl
theorem sealGroup (arg crc : Byte) : Statement (.sealGroup arg crc) := of_body rfl rfl
theorem discard (arg crc : Byte) : Statement (.discard arg crc) := of_body rfl rfl
theorem clearFault (arg crc : Byte) : Statement (.clearFault arg crc) := of_body rfl rfl
theorem timerStart (arg crc : Byte) : Statement (.timerStart arg crc) := of_body rfl rfl
theorem timerStop (arg crc : Byte) : Statement (.timerStop arg crc) := of_body rfl rfl
theorem timerPreset (arg crc : Byte) : Statement (.timerPreset arg crc) := of_body rfl rfl
theorem setCmt (arg crc : Byte) : Statement (.setCmt arg crc) := of_body rfl rfl

theorem unknownRequest (cmd num : Byte) (arg : Option Byte) (crc : Byte) :
    Statement (.unknownRequest cmd num arg crc) := by
  intro hwf
  refine of_body (c := .unknownRequest cmd num arg crc) rfl ?_ hwf
  simp only [Instr.wf, Bool.and_eq_true, beq_iff_eq] at hwf
  obtain ⟨hu, ha⟩ := hwf
  have hn : cmd = cmdPut → Obj.ofNumber num = none := by
    intro h
    simpa [unknownHead, h] using hu
  by_cases hp : cmd = cmdPut
  · have : ¬ cmd = cmdDo := by rw [hp]; decide
    cases arg <;> simp_all [requestLength]
  · by_cases hd : cmd = cmdDo <;> cases arg <;> simp_all [requestLength]

theorem readOnlyPut (o : Obj) (payload : List Byte) (crc : Byte) : Statement (.readOnlyPut o payload crc) := by
  intro hwf
  refine of_body (c := .readOnlyPut o payload crc) rfl ?_ hwf
  simp only [Instr.wf, Bool.and_eq_true, beq_iff_eq] at hwf
  rw [put_length, hwf.2]; omega

end Sys2Proof.Laws.RequestLength
end

