-- ==== Sys2Proof/Laws/Time.lean ====
section
/-! SUPPORT. Count events, boundary events and the service tick: everything each can do. -/

namespace Sys2Proof.Machine

/-! ## Count events -/

@[simp] theorem Timer.emits_prescale (x : Timer) (n : Nat) : ({ x with prescale := n } : Timer).emits = x.emits := rfl

@[simp] theorem Timer.move_prescale (x : Timer) (n : Nat) : ({ x with prescale := n } : Timer).move = x.move := rfl

theorem Timer.step_prescale (x : Timer) (n : Nat) :
    Timer.step { x with prescale := n } = { Timer.step x with prescale := n } := by
  unfold Timer.step
  rw [Timer.move_prescale]
  split <;> rfl

/-- A count event (R102, R107): nothing for a STOPPED timer; one step for a RUNNING one, and a boundary event when the
step emits a chosen seal source. -/
theorem countEvent_spec (t : Fin 4) (s : State) :
    ((s.timer t).running = false → countEvent t s = s) ∧
    ((s.timer t).running = true → (s.group t).cfg.sources.chosenBy (s.timer t).emits = false →
      countEvent t s = s.modTimer t Timer.step) ∧
    ((s.timer t).running = true → (s.group t).cfg.sources.chosenBy (s.timer t).emits = true →
      countEvent t s = boundary t (s.modTimer t Timer.step)) := by
  refine ⟨fun h => by simp [countEvent, h], fun h h' => by simp [countEvent, h, h'], fun h h' => by
    simp [countEvent, h, h']⟩

/-- A count event of a RUNNING timer whose *prescale count* has been changed first. -/
theorem countEvent_after (t : Fin 4) (s : State) (f : Timer → Timer) (hr : (f (s.timer t)).running = true)
    (he : (f (s.timer t)).emits = (s.timer t).emits) : countEvent t (s.modTimer t f) =
      if (s.group t).cfg.sources.chosenBy (s.timer t).emits then
        boundary t { s with timers := s.timers.set t (Timer.step (f (s.timer t))) }
      else { s with timers := s.timers.set t (Timer.step (f (s.timer t))) } := by
  have h1 : (s.modTimer t f).timer t = f (s.timer t) := by simp
  have h2 : (s.modTimer t f).group t = s.group t := rfl
  have h3 : (s.modTimer t f).modTimer t Timer.step = { s with timers := s.timers.set t (Timer.step (f (s.timer t))) } := by
    simp only [State.modTimer, Four.modify_modify]; rfl
  unfold countEvent
  rw [h1, h2, h3, he, if_pos hr]

/-- TIMER_STEP of a RUNNING timer is one count event, which leaves the *prescale count* at 0 (R102, R103). -/
theorem execTimerStep_spec (t : Fin 4) (s : State) (h : (s.timer t).running = true) :
    execTimerStep t s = .next (
      if (s.group t).cfg.sources.chosenBy (s.timer t).emits then
        boundary t { s with timers := s.timers.set t (Timer.step { s.timer t with prescale := 0 }) }
      else { s with timers := s.timers.set t (Timer.step { s.timer t with prescale := 0 }) }) := by
  unfold execTimerStep
  rw [if_pos h, countEvent_after t s (fun x => { x with prescale := 0 }) h rfl]

/-- A boundary event (R50 to R52): nothing, an overrun, or a seal. -/
theorem boundary_spec (g : Fin 4) (s : State) :
    ((s.group g).state ≠ .running → boundary g s = s) ∧
    ((s.group g).state = .running → (s.group g).hasSealed = true → boundary g s =
      (s.modGroup g (fun x => { x with overruns := min (x.overruns + 1) 255 })).cause (.overrun g)) ∧
    ((s.group g).state = .running → (s.group g).hasSealed = false →
      (s.group g).openCount = 0 → (s.group g).cfg.sealEmpty = false → boundary g s = s) ∧
    ((s.group g).state = .running → (s.group g).hasSealed = false →
      0 < (s.group g).openCount ∨ (s.group g).cfg.sealEmpty = true → boundary g s = sealGroup g s) := by
  refine ⟨fun h => ?_, fun h h' => by simp [boundary, h, h'], fun h h1 h2 h3 => by simp [boundary, h, h1, h2, h3],
    fun h h1 h2 => by simp [boundary, h, h1, h2]⟩
  unfold boundary
  cases hs : (s.group g).state <;> simp_all

/-! ## The service tick -/

/-- Every receiver takes the tick exactly once, whatever the order (R100). -/
theorem tickSchedule_perm (order : List TickSink) : (tickSchedule order).Perm allSinks := by
  have hnd : allSinks.Nodup := by decide
  have hall : ∀ k : TickSink, k ∈ allSinks := by
    intro k
    rcases k with t | _ | g
    · fin_cases t <;> decide
    · decide
    · fin_cases g <;> decide
  have h1 : (tickSchedule order).Nodup := by
    unfold tickSchedule
    rw [List.nodup_append]
    refine ⟨List.nodup_dedup order, hnd.filter _, ?_⟩
    intro a ha b hb hab
    subst hab
    have := (List.mem_filter.mp hb).2
    simp only [Bool.not_eq_true', List.contains_eq_mem, decide_eq_false_iff_not] at this
    exact this (List.mem_dedup.mp ha)
  refine (List.perm_ext_iff_of_nodup h1 hnd).mpr fun k => ⟨fun _ => hall k, fun _ => ?_⟩
  unfold tickSchedule
  rw [List.mem_append]
  by_cases hk : k ∈ order
  · exact .inl (List.mem_dedup.mpr hk)
  · exact .inr (List.mem_filter.mpr ⟨hall k, by simp [hk]⟩)

end Sys2Proof.Machine
end

