-- ==== Sys2Proof/Laws/Terms.lean ====
section
/-! SUPPORT. What the operations of the machine make of a state, in the terms of the statements: seals, completions, the
start test, boundary events, and the ends of a hold. -/

namespace Sys2Proof.Machine

theorem Line.onSeal_eq (x : Line) : x.onSeal = lineSealed x := by
  unfold Line.onSeal lineSealed
  cases x.mode <;> rfl

theorem Line.onCompletion_eq (x : Line) : x.onCompletion = lineCompleted x := by
  unfold Line.onCompletion lineCompleted
  cases x.mode <;> rfl

theorem Line.onTick_eq (x : Line) : x.onTick = lineTicked x := by
  unfold Line.onTick lineTicked
  by_cases h0 : x.countdown = 0
  · cases x; simp_all
  · by_cases h1 : x.countdown = 1
    · simp [h1]
    · simp [h0, h1]

/-- The seal of the machine is the seal of the statements (R47). -/
theorem sealCore_eq (g : Fin 4) (s : State) : sealCore g s = sealedAt g s := by
  have h : (s.lines.get g).onSeal = lineSealed (s.lines.get g) := Line.onSeal_eq _
  simp only [sealCore, sealedAt, Four.modify, h]
  rfl

theorem releaseHeld_eq_holdReleased (g : Fin 4) (s : State) : releaseHeld g s = holdReleased g s := by
  unfold releaseHeld holdReleased
  cases s.held <;> rfl

theorem convertHold_eq_holdConverted (g : Fin 4) (s : State) : convertHold g s = holdConverted g s := by
  unfold convertHold holdConverted
  cases s.held <;> rfl

/-- A release of a hold leaves the mode and the groups. -/
theorem holdReleased_keeps (g : Fin 4) (s : State) :
    (holdReleased g s).mode = s.mode ∧ (holdReleased g s).groups = s.groups := by
  obtain ⟨p, hp⟩ := releaseHeld_eq g s
  rw [← releaseHeld_eq_holdReleased, hp]
  exact ⟨rfl, rfl⟩

/-- After group `g` is DISABLED, all groups are exactly when the others are. -/
theorem allDisabled_set (gs : Four GroupRec) (g : Fin 4) (x : GroupRec) (hx : x.state = .disabled) :
    allDisabled (gs.set g x) = true ↔ ∀ k : Fin 4, k ≠ g → (gs.get k).state = .disabled := by
  have h : allDisabled (gs.set g x) = true ↔ ∀ k : Fin 4, ((gs.set g x).get k).state = .disabled := by
    simp [allDisabled, List.all_eq_true, mem_four]
  rw [h]
  refine forall_congr' fun k => ?_
  rw [Four.get_set]
  by_cases hk : k = g <;> simp [hk, hx]

/-- Reaching DISABLED is that of the statements (R18, R36, R180). -/
theorem reachDisabled_eq_disabledAt (g : Fin 4) (s : State) : reachDisabled g s = disabledAt g s := by
  obtain ⟨hm, hg⟩ := holdReleased_keeps g { s with groups := s.groups.set g { s.group g with state := .disabled } }
  have h := allDisabled_set s.groups g { s.group g with state := .disabled } rfl
  unfold reachDisabled disabledAt leavingCheck
  rw [releaseHeld_eq_holdReleased]
  change (if (holdReleased g { s with groups := s.groups.set g { s.group g with state := .disabled } }).mode = .leaving ∧
    allDisabled (holdReleased g { s with groups := s.groups.set g { s.group g with state := .disabled } }).groups = true
    then _ else _) = _
  rw [hm, hg]
  simp only [h]
  rfl

/-- Steps 1 to 5 of a completion are those of the statements (R74). -/
theorem finishDrain_eq (g : Fin 4) (s : State) : finishDrain g s = completedAt g s := by
  have hc : completeCore g s = drained g s := by
    have h : (s.lines.get g).onCompletion = lineCompleted (s.lines.get g) := Line.onCompletion_eq _
    simp only [completeCore, drained, Four.modify, h]
    rfl
  unfold finishDrain completedAt completeStopping woundDown
  rw [hc, sealCore_eq, reachDisabled_eq_disabledAt]

/-- The start test answers what `StartTest` gives (R63). -/
theorem testStart_of {s u : State} (h : StartTest s u) : testStart s = u := by
  induction h with
  | rests h => exact testStart_none h
  | @starts s g rest he hq hc hs =>
    rw [testStart_eq]
    have hd : drainDone g (beginDrain g rest s) = false := by
      simp only [drainDone, beginDrain_queue, beginDrain_issue]
      rcases hs with hs | hs <;> simp [hs]
    simp only [he, hq, hc, hd]
    rfl
  | @completes s t g rest he hq hc hs hw _ ih =>
    rw [testStart_completes he hq hc hs hw, finishDrain_eq]
    exact ih

/-- Every state has an outcome of the start test. -/
theorem startTest_total (s : State) : ∃ u, StartTest s u := by
  induction hn : startMeasure s using Nat.strong_induction_on generalizing s with
  | _ n ih =>
    by_cases hr : s.engine.state ≠ .idle ∨ s.commitReq = [] ∨ s.chold = true
    · exact ⟨s, .rests hr⟩
    · simp only [not_or, not_not, Bool.not_eq_true] at hr
      obtain ⟨he, hq, hc⟩ := hr
      obtain ⟨g, rest, hq⟩ := List.exists_cons_of_ne_nil hq
      by_cases hd : hasSealedEntry s.queue g = true ∨ writeOutstanding s.issue g = true
      · exact ⟨_, .starts he hq hc hd⟩
      · simp only [not_or, Bool.not_eq_true] at hd
        have hlt := startMeasure_finish hq
        rw [finishDrain_eq] at hlt
        obtain ⟨u, hu⟩ := ih _ (hn ▸ hlt) _ rfl
        exact ⟨u, .completes he hq hc hd.1 hd.2 hu⟩

/-- The start test, in the terms of the statements. -/
theorem startTest_iff {s u : State} : StartTest s u ↔ testStart s = u := by
  refine ⟨testStart_of, fun h => ?_⟩
  obtain ⟨v, hv⟩ := startTest_total s
  rw [← h, testStart_of hv]
  exact hv

/-- A seal and the start test it brings, in the terms of the statements (R47, R63). -/
theorem sealGroup_of {g : Fin 4} {s u : State} (h : StartTest (sealedAt g s) u) : sealGroup g s = u := by
  rw [sealGroup, sealCore_eq, testStart_of h]

/-- A boundary event does what `BoundaryGives` gives (R50 to R52). -/
theorem boundary_of {g : Fin 4} {s u : State} (h : BoundaryGives g s u) : boundary g s = u := by
  obtain ⟨h1, h2, h3, h4⟩ := boundary_spec g s
  cases h with
  | ignored hr => exact h1 hr
  | overrun hr hs => rw [h2 hr hs]; rfl
  | passes hr hs ho he => exact h3 hr hs ho he
  | seals hr hs ho ht => rw [h4 hr hs ho, sealGroup_of ht]

/-- Every state has an outcome of a boundary event. -/
theorem boundaryGives_total (g : Fin 4) (s : State) : ∃ u, BoundaryGives g s u := by
  by_cases hr : (s.group g).state = .running
  · cases hs : (s.group g).hasSealed
    · by_cases ho : 0 < (s.group g).openCount ∨ (s.group g).cfg.sealEmpty = true
      · obtain ⟨u, hu⟩ := startTest_total (sealedAt g s)
        exact ⟨u, .seals hr hs ho hu⟩
      · simp only [not_or, Nat.not_lt, Nat.le_zero, Bool.not_eq_true] at ho
        exact ⟨s, .passes hr hs ho.1 ho.2⟩
    · exact ⟨_, .overrun hr hs⟩
  · exact ⟨s, .ignored hr⟩

/-! ## The re-examination of the heads (R12) -/

theorem admissible_iff (s : State) (g : Fin 4) (r : Request) : admissible s g r = true ↔ Fits g r s := by
  simp only [admissible, Bool.and_eq_true, decide_eq_true_eq]
  rfl

/-- The re-examination of a host request that waits to be passed through, by the class it has now. -/
theorem reexamineHost_passes {g : Fin 4} {s : State} {r : Request} (h : PassesAt s .hp r) :
    reexamineHost g s =
      match spanClass s.windows (requestWords r) with
      | none => s.setHead .hp (.answered ⟨.span, []⟩)
      | some (.staged n h forward policy) =>
        if h = g then
          match r.kind with
          | .write => offerAdmission (.staged n h forward policy) g policy r s
          | .read => if forward then s.setHead .hp (forwardPhase (.staged n h forward policy) g r s) else s
        else s
      | some .bypassed | some .outside | some (.locked _) => s := by
  obtain ⟨i, cls, h⟩ := h
  have h' : s.hp.head? = some ⟨i, r, .head cls .passThrough⟩ := h
  unfold reexamineHost
  rw [h'] <;> rfl

/-- The re-examination of a consumer request that waits to be passed through, by the class it has now. -/
theorem reexamineConsumer_passes {g : Fin 4} {s : State} {r : Request} (h : PassesAt s .cp r) :
    reexamineConsumer g s =
      match r.kind with
      | .read => s
      | .write =>
        match spanClass s.windows (requestWords r) with
        | none => s.setHead .cp (.answered ⟨.span, []⟩)
        | some (.staged _ h _ _) => if h = g then s.setHead .cp (.answered ⟨.locked, []⟩) else s
        | some .bypassed | some .outside | some (.locked _) => s := by
  obtain ⟨i, cls, h⟩ := h
  have h' : s.cp.head? = some ⟨i, r, .head cls .passThrough⟩ := h
  unfold reexamineConsumer
  rw [h']
  cases hk : r.kind <;> simp only [hk] <;> rfl

/-- The class of a request inside a window that is LOCKED or of another group leaves its re-examination without effect. -/
theorem windowClass_cases (ws : Eight Window) (n : Fin 8) :
    ((ws.get n).kind = .locked ∧ windowClass ws n = .locked n) ∨
    ((ws.get n).kind = .staged ∧
      windowClass ws n = .staged n (ws.get n).group (ws.get n).forward (ws.get n).policy) := by
  unfold windowClass
  cases h : (ws.get n).kind <;> simp

/-- The re-examination of the Host Port's head does what `HostReexamined` gives (R12). -/
theorem reexamineHost_of {g : Fin 4} {s t : State} (hw : WindowsApart s)
    (hf : ∀ sl ∈ s.hp.head?.toList, FormSound sl.req) (h : HostReexamined g s t) : reexamineHost g s = t := by
  have form : ∀ {r : Request}, PassesAt s .hp r → FormSound r := by
    rintro r ⟨i, cls, h⟩
    have h' : s.hp.head? = some ⟨i, r, .head cls .passThrough⟩ := h
    exact hf ⟨i, r, .head cls .passThrough⟩ (by simp [h'])
  cases h with
  | nothing hn =>
    unfold reexamineHost
    cases hh : s.hp.head? with
    | none => rfl
    | some sl =>
      have := hn sl (by simp [hh])
      obtain ⟨i, r, ph⟩ := sl
      cases ph with
      | head c r => cases r <;> simp_all [SlotPhase.passesThrough]
      | _ => rfl
  | straddles hp h0 hn => rw [reexamineHost_passes hp, spanClass_straddles h0 hn]
  | outside hp h0 => rw [reexamineHost_passes hp, spanClass_outside h0]
  | @elsewhere r n hp hi hk =>
    rw [reexamineHost_passes hp, spanClass_inside hw (form hp) hi]
    rcases windowClass_cases s.windows n with ⟨h1, h2⟩ | ⟨h1, h2⟩ <;> rw [h2]
    exact if_neg (by simpa [h1] using hk)
  | @writeFits r n hp hi hk hg hr hfit =>
    rw [reexamineHost_passes hp, spanClass_inside hw (form hp) hi]
    simp [windowClass, hk, hg, hr, offerAdmission, offerPhase, (admissible_iff s g r).mpr hfit]
  | @writeRefused r n hp hi hk hg hr hfit hpol =>
    have ha : admissible s g r = false := by rw [← Bool.not_eq_true, admissible_iff]; exact hfit
    rw [reexamineHost_passes hp, spanClass_inside hw (form hp) hi]
    simp [windowClass, hk, hg, hr, offerAdmission, offerPhase, ha, hpol]
  | @writeHeld r n hp hi hk hg hr hfit hpol =>
    have ha : admissible s g r = false := by rw [← Bool.not_eq_true, admissible_iff]; exact hfit
    rw [reexamineHost_passes hp, spanClass_inside hw (form hp) hi]
    simp [windowClass, hk, hg, hr, offerAdmission, offerPhase, ha, hpol, stagedClass, holdTicks]
  | @readCovered r n hp hi hk hg hr hfw hfull =>
    rw [reexamineHost_passes hp, spanClass_inside hw (form hp) hi]
    simp only [windowClass, hk, hg, hr, hfw, if_true, forwardPhase]
    rw [if_pos (by simpa [List.all_eq_true] using hfull), List.map_map]
    rfl
  | @readForwarded r n hp hi hk hg hr hfw hpart =>
    rw [reexamineHost_passes hp, spanClass_inside hw (form hp) hi]
    simp only [windowClass, hk, hg, hr, hfw, if_true, forwardPhase, stagedClass]
    rw [if_neg (by simpa [List.all_eq_true] using hpart)]
  | @readPasses r n hp hi hk hg hr hfw =>
    rw [reexamineHost_passes hp, spanClass_inside hw (form hp) hi]
    simp [windowClass, hk, hg, hr, hfw]

/-- The re-examination of the Consumer Port's head does what `ConsumerReexamined` gives (R12). -/
theorem reexamineConsumer_of {g : Fin 4} {s t : State} (hw : WindowsApart s)
    (hf : ∀ sl ∈ s.cp.head?.toList, FormSound sl.req) (h : ConsumerReexamined g s t) :
    reexamineConsumer g s = t := by
  have form : ∀ {r : Request}, PassesAt s .cp r → FormSound r := by
    rintro r ⟨i, cls, h⟩
    have h' : s.cp.head? = some ⟨i, r, .head cls .passThrough⟩ := h
    exact hf ⟨i, r, .head cls .passThrough⟩ (by simp [h'])
  cases h with
  | nothing hn =>
    unfold reexamineConsumer
    cases hh : s.cp.head? with
    | none => rfl
    | some sl =>
      have := hn sl (by simp [hh])
      obtain ⟨i, r, ph⟩ := sl
      cases ph with
      | head c r => cases r <;> simp_all [SlotPhase.passesThrough]
      | _ => rfl
  | straddles hp hk h0 hn => simp only [reexamineConsumer_passes hp, hk, spanClass_straddles h0 hn]
  | @outside r hp h0 =>
    rw [reexamineConsumer_passes hp, spanClass_outside h0]
    cases r.kind <;> rfl
  | @elsewhere r n hp hi hk =>
    rw [reexamineConsumer_passes hp, spanClass_inside hw (form hp) hi]
    cases r.kind with
    | read => rfl
    | write =>
      rcases windowClass_cases s.windows n with ⟨h1, h2⟩ | ⟨h1, h2⟩ <;> simp only [h2]
      exact if_neg (by simpa [h1] using hk)
  | @barred r n hp hk hi hst hg =>
    rw [reexamineConsumer_passes hp, spanClass_inside hw (form hp) hi]
    simp [windowClass, hst, hg, hk]

/-! ## Monitors and requesters -/

/-- What an access makes of the monitors and the flags is what `MonitorsSee` says (R143, R146, R147, R149, R159). -/
theorem observe_sees (stream : Requester) (k : Kind) (words : List Addr) (s : State) :
    MonitorsSee stream k words s (observe stream k words s) := by
  intro hit caused hh hc
  have hs : ∀ m, (s.monitors.get m).cfg.spots stream k words = hit m := by
    intro m
    rw [hh m, MonCfg.spots]
    simp only [Bool.and_eq_true, and_assoc, Bool.decide_and]
  have hf : ∀ f, (four.any (fun m => (hit m).isSome &&
      (decide (f = .hit m) || ((s.monitors.get m).capture.full && decide (f = .captureOverwrite))))) = caused f := by
    intro f
    rw [hc]
    cases f <;> simp [four]
    next m => fin_cases m <;> simp
  refine ⟨fun m hm => ?_, fun m a hm => ?_, fun f => ?_, by simp⟩
  · simp [observe_monitor, hs, hm]
  · simp [observe_monitor, hs, hm, Monitor.hit]
  · simp only [observe_isSet, observe_mark, hs, hf]
    trivial

/-- A port's head that needs the memory, in the terms of the statements (R127). -/
theorem memoryHead_iff (s : State) (p : PortId) (r : Request) :
    (∃ x, (s.port p).memoryHead = some x ∧ x.1.req = r) ↔ NeedsMemory s p r := by
  unfold Port.memoryHead NeedsMemory PassesAt
  cases hh : (s.port p).head? with
  | none => simp
  | some sl =>
    obtain ⟨i, q, ph⟩ := sl
    cases ph with
    | head c ro => cases ro <;> simp
    | _ => simp

/-- The fence, in the terms of the statements (R94). -/
theorem fenced_iff {s : State} (hw : WindowsApart s) (r : Request) : fenced s r = true ↔
    r.kind = .read ∧ ∃ g : Fin 4, s.engine.state = .draining g ∧ (requestWords r).any (inWindowOf s g) = true := by
  unfold fenced
  cases he : s.engine.state with
  | idle => simp
  | draining g =>
    have hin : ∀ a, (match windowOf s.windows a with
        | some n => (s.windows.get n).kind == .staged && (s.windows.get n).group == g
        | none => false) = inWindowOf s g a := by
      intro a
      rw [Bool.eq_iff_iff]
      cases ha : windowOf s.windows a with
      | none =>
        have := windowOf_none.mp ha
        simp [inWindowOf, this]
      | some n =>
        simp only [inWindowOf, List.any_eq_true, Bool.and_eq_true, mem_eight, true_and]
        refine ⟨fun h => ⟨n, ⟨windowOf_covers ha, h.1⟩, h.2⟩, ?_⟩
        rintro ⟨m, ⟨h1, h2⟩, h3⟩
        have : m = n := by simpa [ha] using (windowOf_eq hw h1).symm
        subst this
        exact ⟨h2, h3⟩
    have key : ∀ f : Addr → Bool, (∀ a, f a = inWindowOf s g a) →
        ((r.kind == .read && (requestWords r).any f) = true ↔ r.kind = .read ∧ ∃ k : Fin 4,
          EngineState.draining g = .draining k ∧ (requestWords r).any (inWindowOf s k) = true) := by
      intro f hf
      rw [funext hf]
      simp
    exact key _ hin

end Sys2Proof.Machine
end

