-- ==== Sys2Proof/Tests/Slice0.lean ====
section
/-! SUPPORT. The tests of the model: ill-formed commands are refused; the request bytes of the spec's frames decode to
their commands; single steps of the spec's worked sequences give the spec's values; and, for every statement with
hypotheses, a concrete state and operands that meet them, clause by clause. -/

namespace Sys2Proof.Tests

open Sys2Proof Sys2Proof.Machine

set_option Elab.async false

/-! ## Helpers -/

/-- The state a command leaves. -/
def after (c : Instr) (s : State) : State :=
  match exec c s with
  | .next t => t
  | .fault _ => s
  | .refused _ => s

/-- A read of `n` words. -/
def rd (a : Addr) (n : BitVec 4) : Request := ⟨.read, a, n, []⟩

/-- A write of these beats. -/
def wr (a : Addr) (bs : List Beat) : Request := ⟨.write, a, BitVec.ofNat 4 bs.length, bs⟩

/-- A beat of a whole word of one byte value. -/
def full (b : Byte) : Beat := ⟨⟨b, b, b, b⟩, LaneMask.full⟩

/-- A staging queue entry. -/
def ent (g : Fin 4) (role : Role) (a : Addr) (w : Word) (m : LaneMask) (is : IssueState) : Entry := ⟨g, role, a, w, m, is⟩

/-- A group record by state, open epoch, last committed epoch, sealed epoch, counts and quota. -/
def grp (st : GroupState) (oe lc : BitVec 16) (has : Bool) (opened sealed quota : Nat) : GroupRec :=
  { GroupRec.reset with
    cfg := { GroupCfg.reset with quota := quota }
    state := st, openEpoch := oe, lastCommitted := lc, hasSealed := has, openCount := opened, sealedCount := sealed }

/-- A port whose one request is in this phase. -/
def one (r : Request) (ph : SlotPhase) : Port := ⟨[⟨0, r, ph⟩], [], none⟩

/-- The frame is in its request phase, with nothing received. -/
def ready (s : State) : State := { s with mgmt := ⟨.request, [], none, [], none⟩ }

/-- The windows of Section 1.3.1, and a window of G2 under REFUSE. -/
def table : Eight Window :=
  { Eight.all Window.reset with
    a0 := ⟨true, 0x20000000, 16, .staged, 0, false, .stall⟩
    a1 := ⟨true, 0x20001000, 1, .locked, 0, false, .stall⟩
    a2 := ⟨true, 0x20002000, 4, .staged, 1, true, .stall⟩
    a3 := ⟨true, 0x20004000, 1, .staged, 2, false, .refuse⟩ }

/-- ACTIVE, with the windows above; G0 to G2 are RUNNING, G3 is DISABLED, and nothing is staged. -/
def bridge : State :=
  { State.reset with
    mode := .active
    windows := table
    groups := ⟨grp .running 1 0 false 0 0 6, grp .running 1 0 false 0 0 128, grp .running 1 0 false 0 0 2, GroupRec.reset⟩ }

/-- The bridge with one request waiting at a port. -/
def hostAsks (r : Request) : State := { bridge with hp := one r .waiting }

/-- The bridge with one consumer request waiting. -/
def consumerAsks (r : Request) : State := { bridge with cp := one r .waiting }

/-- The word of a commit write. -/
def e1 : Entry := ent 1 .sealed 0x20002000 ⟨0xA0, 0xA1, 0, 0⟩ ⟨true, true, false, false⟩ .issued
/-- An OPEN entry beside it. -/
def f1 : Entry := ent 1 .opened 0x20002000 ⟨0, 0xB1, 0, 0⟩ ⟨false, true, false, false⟩ .notIssued

/-- The record of a commit write. -/
def ceRec (e : Entry) : IssueRec := ⟨.ce, ⟨.write, e.addr, 1, [⟨e.data, e.mask⟩]⟩, none, none, some ⟨e.group, e.addr⟩, false⟩

/-- Section 11.9, step 1: G1 is being drained, E has its commit write outstanding, and a host read of the word waits to
be forwarded. -/
def midDrain : State :=
  { bridge with
    groups := { bridge.groups with a1 := grp .running 2 0 true 1 1 128 }
    queue := [e1, f1]
    engine := ⟨.draining 1, 1, []⟩
    issue := [ceRec e1]
    hp := one (rd 0x20002000 1) (.head (.staged 2 1 true .stall) .forwarded) }

/-- The windows of the bridge do not overlap. -/
theorem apart : WindowsApart bridge := by
  refine ⟨by decide +kernel, by decide +kernel⟩

/-- A request whose bytes are still to come is ready under its own CRC. -/
theorem ready_any (s : State) (body : List Byte) : RequestReady (ready s) body (crc8 body) := ⟨rfl, rfl, rfl⟩

/-! ## Ill-formed commands are refused -/

theorem test_wf_read_with_beats : (Instr.requestAccept .hp ⟨.read, 0, 1, [full 0]⟩).wf = false := by decide
theorem test_wf_write_beat_count : (Instr.requestAccept .hp ⟨.write, 0, 2, [full 0]⟩).wf = false := by decide
theorem test_wf_get_capture : (Instr.get (.capture 1) 0).wf = false := by decide
theorem test_wf_unknown_but_known : (Instr.unknownRequest 0x01 0x01 none 0).wf = false := by decide
theorem test_wf_unknown_do_without_argument : (Instr.unknownRequest 0x03 0x77 none 0).wf = false := by decide
theorem test_wf_unknown_get_with_argument : (Instr.unknownRequest 0x01 0x05 (some 0) 0).wf = false := by decide
theorem test_wf_read_only_put_of_writable : (Instr.readOnlyPut .device [0, 0, 25] 0).wf = false := by decide
theorem test_wf_read_only_put_length : (Instr.readOnlyPut .ident [4, 0x28, 1] 0).wf = false := by decide

/-! ## Request bytes (R165, Section 10.8) -/

theorem test_decode_get_device : decodeRequest [0x01, 0x01, 0x12] = .ok (.get .device 0x12) := by rfl
theorem test_decode_put_device :
    decodeRequest [0x02, 0x01, 0x00, 0x00, 0x32, 0x4C] = .ok (.putDevice ⟨0x00, 0x0032⟩ 0x4C) := by rfl
theorem test_decode_do_seal : decodeRequest [0x03, 0x12, 0x02, 0xCE] = .ok (.sealGroup 0x02 0xCE) := by rfl
theorem test_decode_get_capture : decodeRequest [0x01, 0x49, 0x00] = .ok (.getCapture 1 0x00) := by rfl
theorem test_decode_short : decodeRequest [0x02, 0x01, 0x00, 0x00, 0x32] = .error .incomplete := by rfl
theorem test_decode_long : decodeRequest [0x01, 0x01, 0x12, 0x00] = .error .overlong := by rfl
theorem test_encode_put_window :
    encodeRequest (.putWindow 3 ⟨0x01, 0x20004000, 0x00000001, 0x00, 0x02, 0x00, 0x01⟩ 0x55) =
      some [0x02, 0x13, 0x01, 0x20, 0x00, 0x40, 0x00, 0x00, 0x00, 0x00, 0x01, 0x00, 0x02, 0x00, 0x01, 0x55] := by rfl
theorem test_crc_check_value :
    crc8 [0x31, 0x32, 0x33, 0x34, 0x35, 0x36, 0x37, 0x38, 0x39] = 0xF4 := by decide +kernel
theorem test_table_word_spells_nothing : decodeTableWord 8 1 = none := by rfl

/-! ## Single steps of the worked sequences -/

/-! ### Resets (R182, R183) -/

/-- 11.3: power-on frees the slots, and a frame in progress is ignored to its end. -/
theorem test_power_on_frees_slots :
    ((after .powerOn (ready midDrain)).hp.slots, (after .powerOn (ready midDrain)).mgmt.phase) =
      ([], FramePhase.ignored) := by decide +kernel
theorem test_rstn_assert_keeps_offered :
    (after .rstnAssert { midDrain with cp := ⟨[], [rd 0x10 1], none⟩ }).cp.offered = [rd 0x10 1] := by decide +kernel
/-- R119: the reference level of SYNC1 is the line's level at the release. -/
theorem test_rstn_release_takes_reference :
    (after .rstnRelease { State.reset with inReset := true, syncLine := ⟨false, true, false, false⟩ }).syncRef =
      ⟨false, true, false, false⟩ := by decide +kernel
/-- R138: the outstanding commit write becomes an orphan and still counts. -/
theorem test_soft_reset_orphans :
    ((after (.softReset 0 (crc8 [3, 3, 0])) (ready midDrain)).issue.map IssueRec.orphan,
      (after (.softReset 0 (crc8 [3, 3, 0])) (ready midDrain)).engine) = ([true], ⟨.idle, 1, []⟩) := by decide +kernel
/-- R137: the waiting forwarded read is answered ERROR RESET. -/
theorem test_soft_reset_answers_requests :
    (after (.softReset 0 (crc8 [3, 3, 0])) (ready midDrain)).hp.slots.map Slot.phase =
      [.answered ⟨.reset, []⟩] := by decide +kernel

/-! ### Ports and classes (Sections 1.3.1, 2.3.1, 7.2.1) -/

/-- 7.2.1: a fifth request is not accepted. -/
theorem test_fifth_request_waits :
    (after (.requestAccept .hp (rd 0x10 1))
      { bridge with hp := ⟨four.map (fun i => ⟨i, rd 0x30000000 1, .issued⟩), [], none⟩ }).hp.offered =
      [rd 0x10 1] := by decide +kernel
/-- 1.3.1: the write of two words at 0x20000FFC fails SPAN. -/
theorem test_span_write :
    (after (.headProcessing .hp) (hostAsks (wr 0x20000FFC [full 1, full 2]))).hp.slots.map Slot.phase =
      [.answered ⟨.span, []⟩] := by decide +kernel
/-- 2.3.1: beat 1 coalesces, beat 2 has an empty mask, and the need is 2. -/
theorem test_need_count :
    need [ent 0 .sealed 0x20000000 ⟨0xA0, 0xA1, 0xA2, 0xA3⟩ LaneMask.full .issued,
        ent 0 .opened 0x20000000 ⟨0x11, 0x22, 0, 0⟩ ⟨true, true, false, false⟩ .notIssued,
        ent 0 .opened 0x20000004 ⟨0x70, 0x71, 0x72, 0x73⟩ LaneMask.full .notIssued] 0
      (wr 0x20000000 [⟨⟨0, 0, 0x33, 0x44⟩, ⟨false, false, true, true⟩⟩, ⟨Word.zero, LaneMask.none⟩,
        ⟨⟨0x55, 0, 0, 0⟩, ⟨true, false, false, false⟩⟩, full 0x60]) = 2 := by decide +kernel
/-- 7.2.1: the delivery of H2, refused ALIGN, sets PORT_ERROR. -/
theorem test_delivery_sets_port_error :
    (after (.responseDelivery .hp) { bridge with hp := one (wr 0x2 [full 1]) (.answered ⟨.align, []⟩) }).events.value =
      0x04000000 := by decide +kernel

/-! ### The arbiter, drains and answers (Sections 4.9, 4.10, 7.4.1, 11.9) -/

/-- 7.4.1, step 1: with the pointer at CP and the engine at its limit, HP is granted. -/
theorem test_rotation_after_cp :
    (after .memoryGrant { bridge with
      pointer := .cp
      hp := one (rd 0x30000000 1) (.head .outside .passThrough)
      cp := one (rd 0x30000000 1) (.head .outside .passThrough) }).pointer = .hp := by decide +kernel
/-- 11.9, step 2: the snapshot holds the sealed and the open part. -/
theorem test_snapshot_at_grant :
    (after .memoryGrant midDrain).issue.map IssueRec.snapshot =
      [none, some [⟨some ⟨⟨0xA0, 0xA1, 0, 0⟩, ⟨true, true, false, false⟩⟩,
        some ⟨⟨0, 0xB1, 0, 0⟩, ⟨false, true, false, false⟩⟩⟩]] := by decide +kernel
/-- 11.9: the forwarded read returns 0xA0, 0xB1, 0x12, 0x13. -/
theorem test_forwarded_read_merges :
    (after (.memoryAnswer .ok [⟨0xA0, 0xA1, 0x12, 0x13⟩]) { midDrain with
      issue := [⟨.hp, rd 0x20002000 1, some 0,
        some [⟨some ⟨⟨0xA0, 0xA1, 0, 0⟩, ⟨true, true, false, false⟩⟩,
          some ⟨⟨0, 0xB1, 0, 0⟩, ⟨false, true, false, false⟩⟩⟩], none, false⟩]
      hp := one (rd 0x20002000 1) .issued }).hp.slots.map Slot.phase =
      [.answered ⟨.ok, [⟨0xA0, 0xB1, 0x12, 0x13⟩]⟩] := by decide +kernel
/-- 4.9, step 11: the second ERROR drops the entry and makes the fault record valid. -/
theorem test_second_error_drops :
    (after (.memoryAnswer .error []) { bridge with
      groups := { bridge.groups with a2 := grp .running 6 4 true 0 2 128 }
      queue := [ent 2 .sealed 0x20004004 ⟨1, 2, 3, 4⟩ LaneMask.full .reissued,
        ent 2 .sealed 0x20004014 ⟨1, 2, 3, 4⟩ LaneMask.full .issued]
      engine := ⟨.draining 2, 2, []⟩
      issue := [ceRec (ent 2 .sealed 0x20004004 ⟨1, 2, 3, 4⟩ LaneMask.full .reissued),
        ceRec (ent 2 .sealed 0x20004014 ⟨1, 2, 3, 4⟩ LaneMask.full .issued)] }).groups.a2.fault =
      ⟨true, 0x20004004, 5, 1⟩ := by decide +kernel
/-- 4.10, step 8: with G3 at the head of the queue, its drain starts. -/
theorem test_chold_release_starts_head :
    (after (.choldChange false) { bridge with
      chold := true
      groups := { bridge.groups with a3 := grp .running 2 0 true 0 1 128 }
      queue := [ent 3 .sealed 0x20005000 Word.zero LaneMask.full .notIssued]
      commitReq := [3, 0, 1] }).engine.state = .draining 3 := by decide +kernel
/-- R48: a sealed epoch without entries completes at its start. -/
theorem test_drain_start_of_empty_epoch :
    (after .drainStart { bridge with
      groups := { bridge.groups with a3 := grp .running 0 65534 true 0 0 128 }
      commitReq := [3] }).groups.a3.lastCommitted = 65535 := by decide +kernel

/-! ### Time (Sections 6.3.1, 6.6.1, 6.6.2, 9.1.1) -/

/-- 2.3: the expiry answers the held write ERROR FULL. -/
theorem test_hold_expiry :
    (after .holdTimerExpiry { bridge with
      hp := one (wr 0x20000000 [full 1]) (.head (.staged 0 0 false .stall) (.held .admission (some 1))) }).hp.slots.map
        Slot.phase = [.answered ⟨.full 0, []⟩] := by decide +kernel
/-- R30: with a tick still to come before the last one, the hold goes on. -/
theorem test_hold_expiry_not_early :
    (after .holdTimerExpiry { bridge with
      hp := one (wr 0x20000000 [full 1]) (.head (.staged 0 0 false .stall) (.held .admission (some 2))) }).hp.slots.map
        Slot.phase = [.head (.staged 0 0 false .stall) (.held .admission (some 2))] := by decide +kernel
/-- 9.1.1, tick 15: the tick that lowers the countdown to 0 makes the line inactive, and the active-low pin high. -/
theorem test_tick_ends_pulse :
    (after (.serviceTick []) { bridge with
      lines := { State.reset.lines with a1 := ⟨.pulse, .activeLow, 3, false, true, 1⟩ } }).lines.a1.pin = true := by
  decide +kernel
/-- 6.6.2: with k = 3, the eighth tick makes the step. -/
theorem test_tick_steps_prescaled_timer :
    (after (.serviceTick [.timer 3]) { bridge with
      timers := { State.reset.timers with
        a3 := ⟨.down, true, .tick 3, 3, 2, true, 3, .down, none, none, 7⟩ } }).timers.a3.counter = 2 := by decide +kernel
/-- 6.6.1: the WRAP step loads the pending period and match. -/
theorem test_wrap_loads_pending :
    (after (.timerStep 0) { bridge with
      timers := { State.reset.timers with
        a0 := ⟨.up, false, .tick 0, 9, 7, true, 9, .up, some 4, some 2, 0⟩ } }).timers.a0 =
      ⟨.up, false, .tick 0, 4, 2, true, 0, .up, none, none, 0⟩ := by decide +kernel
/-- 6.6.2: the last step of the one-shot DOWN timer reloads the new period and stops. -/
theorem test_one_shot_down_stops :
    (after (.timerStep 3) { bridge with
      timers := { State.reset.timers with
        a3 := ⟨.down, true, .tick 3, 3, 2, true, 0, .down, some 5, none, 7⟩ } }).timers.a3 =
      ⟨.down, true, .tick 3, 5, 2, false, 5, .down, none, none, 0⟩ := by decide +kernel
/-- 9.1.1: tick 15 ends the pulse. -/
theorem test_pulse_end :
    (after (.pulseEnd 1) { bridge with
      lines := { State.reset.lines with a1 := ⟨.pulse, .activeLow, 3, false, true, 1⟩ } }).lines.a1 =
      ⟨.pulse, .activeLow, 3, false, false, 0⟩ := by decide +kernel
/-- 9.1.1: with two ticks to come, no pulse ends. -/
theorem test_pulse_end_not_early :
    (after (.pulseEnd 1) { bridge with
      lines := { State.reset.lines with a1 := ⟨.pulse, .activeLow, 3, false, true, 2⟩ } }).lines.a1 =
      ⟨.pulse, .activeLow, 3, false, true, 2⟩ := by decide +kernel
/-- R120: the edge is a boundary event of the group that has SYNC among its seal sources. -/
theorem test_sync_edge_seals :
    (after (.syncTransition 2 true) { bridge with
      chold := true
      groups := { bridge.groups with a2 :=
        { grp .running 1 0 false 0 0 128 with cfg := ⟨128, 0, ⟨false, false, false, true⟩, .rising, true⟩ } } }).commitReq =
      [2] := by decide +kernel

/-! ### The management link (Sections 9.2.1, 10.8) -/

/-- 9.2.1: the fall of MCSn makes every frame mark no. -/
theorem test_frame_start_clears_marks :
    (after .frameStart { State.reset with events := ⟨0x02000110, 0x02000110, 0x110⟩ }).events =
      ⟨0x02000110, 0, 0x110⟩ := by decide +kernel
/-- 10.8, frame 2: a short frame sets MGMT_ERROR. -/
theorem test_short_frame :
    (after .frameEnd { State.reset with mgmt := ⟨.request, [0x01, 0x01], some 3, [], some 0⟩ }).events.value =
      0x10000000 := by decide +kernel
/-- 10.8, frame 1: the reply carries 0xC0, the mode, the divisor 25 and the CRC 0xE5. -/
theorem test_get_device :
    (after (.get .device 0x12) (ready State.reset)).mgmt.reply = [0xC0, 0x00, 0x00, 0x19, 0xE5] := by decide +kernel
/-- 10.8, frame 2: the CRC mismatch. -/
theorem test_get_device_bad_crc :
    (after (.get .device 0x13) (ready State.reset)).mgmt.reply = [0xC6] := by decide +kernel
/-- 8.7, step 3: the GET empties the record. -/
theorem test_get_capture_empties :
    (after (.getCapture 1 (crc8 [0x01, 0x49])) (ready { State.reset with monitors :=
      { State.reset.monitors with a1 := { Monitor.reset with
        capture := ⟨true, .hp, .write, 0x20002010, 52, 6⟩ } } })).monitors.a1.capture =
      ⟨false, .hp, .write, 0x20002010, 52, 6⟩ := by decide +kernel
/-- 10.8, frame 3: the period in progress ends under the divisor 25. -/
theorem test_put_device :
    (after (.putDevice ⟨0, 50⟩ 0x4C) (ready State.reset)).tick = ⟨50, 25, 0⟩ := by decide +kernel
/-- 9.2.1: COMMITTED_G0, marked by its new cause, stays set; OVERRUN_G0 is cleared. -/
theorem test_put_events_keeps_marked :
    (after (.putEvents 0x110 (crc8 [0x02, 0x03, 0, 0, 0x01, 0x10]))
      (ready { State.reset with events := ⟨0x02000110, 0x10, 0x110⟩ })).events.value = 0x02000010 := by decide +kernel
theorem test_put_event_en :
    (after (.putEventEn 0xC0000110 (crc8 [0x02, 0x04, 0xC0, 0, 0x01, 0x10])) (ready State.reset)).events.enable =
      0x110 := by decide +kernel
/-- R3: the new range would share addresses with W1. -/
theorem test_put_window_overlap :
    (after (.putWindow 7 ⟨1, 0x20001000, 1, 1, 0, 0, 0⟩
        (crc8 (0x02 :: 0x17 :: WindowRaw.toBytes ⟨1, 0x20001000, 1, 1, 0, 0, 0⟩))) (ready bridge)).mgmt.reply = [0xC3] := by
  decide +kernel
/-- 1.4.5: a PUT of the window of a group that is not DISABLED is refused BUSY. -/
theorem test_put_window_busy :
    (after (.putWindow 3 ⟨0, 0x20004000, 1, 0, 2, 0, 0⟩
        (crc8 (0x02 :: 0x13 :: WindowRaw.toBytes ⟨0, 0x20004000, 1, 0, 2, 0, 0⟩))) (ready bridge)).mgmt.reply = [0xC1] := by
  decide +kernel
/-- R14: PEAK needs a timer in UPDOWN mode. -/
theorem test_put_group_cfg_peak :
    (after (.putGroupCfg 3 ⟨16, 0, 0x02, 1, 0⟩
        (crc8 (0x02 :: 0x23 :: GroupCfgRaw.toBytes ⟨16, 0, 0x02, 1, 0⟩))) (ready bridge)).mgmt.reply = [0xC2] := by
  decide +kernel
/-- 6.6.1: the PUT to the running timer leaves P and M pending. -/
theorem test_put_timer_cfg_pending :
    (after (.putTimerCfg 0 ⟨0, 0, 0, 0, 4, 2⟩ (crc8 (0x02 :: 0x30 :: TimerCfgRaw.toBytes ⟨0, 0, 0, 0, 4, 2⟩)))
      (ready { bridge with timers := { State.reset.timers with
        a0 := ⟨.up, false, .tick 0, 9, 7, true, 6, .up, none, none, 0⟩ } })).timers.a0 =
      ⟨.up, false, .tick 0, 9, 7, true, 6, .up, some 4, some 2, 0⟩ := by decide +kernel
theorem test_put_mon_cfg_clears :
    (after (.putMonCfg 1 ⟨1, 0x20002000, 0x2000201C, 5, 2, 1⟩
        (crc8 (0x02 :: 0x41 :: MonCfgRaw.toBytes ⟨1, 0x20002000, 0x2000201C, 5, 2, 1⟩)))
      (ready { bridge with monitors := { State.reset.monitors with
        a1 := { Monitor.reset with hits := 9, overwrites := 3 } } })).monitors.a1.hits = 0 := by decide +kernel
/-- 9.1.1: the change to TOGGLE leaves the line inactive with no countdown. -/
theorem test_put_cmt_cfg_toggle :
    (after (.putCmtCfg 1 ⟨2, 1, 3, 1, 1⟩ (crc8 (0x02 :: 0x51 :: CmtCfgRaw.toBytes ⟨2, 1, 3, 1, 1⟩)))
      (ready { bridge with lines := { State.reset.lines with
        a1 := ⟨.pulse, .activeLow, 3, false, true, 2⟩ } })).lines.a1 =
      ⟨.toggle, .activeLow, 3, false, false, 0⟩ := by decide +kernel
theorem test_unknown_request :
    (after (.unknownRequest 0x01 0x05 none (crc8 [0x01, 0x05])) (ready State.reset)).mgmt.reply = [0xC7] := by
  decide +kernel
theorem test_read_only_put :
    (after (.readOnlyPut (.monCount 1) [0, 0, 0] (crc8 [0x02, 0x4D, 0, 0, 0])) (ready State.reset)).mgmt.reply =
      [0xC8] := by decide +kernel
/-- 10.8, frame 4: the last byte of the request has it taken, and 0x00 is shifted out with it. -/
theorem test_last_byte_takes_request :
    (after (.requestByteReceived 0xCE)
      { State.reset with mgmt := ⟨.request, [0x03, 0x12, 0x02], some 4, [], some 0⟩ }).mgmt =
      ⟨.reply, [], none, [0xC4], some 0⟩ := by decide +kernel

/-! ### Actions (Chapters 1, 3, 6, 9 and 11) -/

theorem test_activate :
    (after (.activate 0 (crc8 [3, 1, 0])) (ready State.reset)).mode = .active := by decide +kernel
/-- 11.8, step 1: G0 goes to DISABLED, G2 makes its final seal and its drain starts. -/
theorem test_bypass_winds_down :
    (fun t : State => (t.mode, t.groups.a0.state, t.groups.a2.state, t.groups.a2.sealedCount, t.engine.state))
      (after (.bypass 0 (crc8 [3, 2, 0])) (ready { bridge with
        groups := { bridge.groups with a2 := grp .running 7 6 false 2 0 128 }
        queue := [ent 2 .opened 0x20004000 Word.zero LaneMask.full .notIssued,
          ent 2 .opened 0x20004004 Word.zero LaneMask.full .notIssued] })) =
      (.leaving, .disabled, .stopping, 2, .draining 2) := by decide +kernel
/-- R17: a group whose fault record is valid becomes FAULTED. -/
theorem test_enable_faulted :
    (after (.enableGroup 3 (crc8 [3, 0x10, 3])) (ready { bridge with
      groups := { bridge.groups with a3 := { GroupRec.reset with fault := ⟨true, 0x10, 5, 1⟩ } } })).groups.a3.state =
      .faulted := by decide +kernel
/-- 1.4.5: the group with a sealed epoch and open entries becomes STOPPING and makes no seal. -/
theorem test_disable_mid_drain :
    (fun t : State => (t.groups.a2.state, t.groups.a2.openCount, t.groups.a2.openEpoch))
      (after (.disableGroup 2 (crc8 [3, 0x11, 2])) (ready { bridge with
        groups := { bridge.groups with a2 := grp .running 8 6 true 3 40 128 }, engine := ⟨.draining 2, 0, []⟩ })) =
      (.stopping, 3, 8) := by decide +kernel
/-- 3.8, step 6: a SEAL is refused BUSY while a sealed epoch exists. -/
theorem test_seal_busy :
    (after (.sealGroup 1 (crc8 [3, 0x12, 1])) (ready midDrain)).mgmt.reply = [0xC1] := by decide +kernel
/-- 3.9: the seal takes the open epoch from 65535 to 0. -/
theorem test_seal_epoch_wraps :
    (after (.sealGroup 2 (crc8 [3, 0x12, 2])) (ready { bridge with
      chold := true
      groups := { bridge.groups with a2 := grp .running 65535 65534 false 0 0 128 } })).groups.a2.openEpoch = 0 := by
  decide +kernel
/-- R41: the OPEN entries leave, the SEALED ones stay. -/
theorem test_discard :
    (after (.discard 1 (crc8 [3, 0x13, 1])) (ready midDrain)).queue = [e1] := by decide +kernel
theorem test_clear_fault :
    (after (.clearFault 2 (crc8 [3, 0x14, 2])) (ready { bridge with
      groups := { bridge.groups with a2 := { grp .faulted 6 5 false 0 0 128 with
        fault := ⟨true, 0x20004004, 5, 1⟩ } } })).groups.a2 = grp .running 6 5 false 0 0 128 := by decide +kernel
theorem test_timer_start_clears_prescale :
    (after (.timerStart 3 (crc8 [3, 0x20, 3])) (ready { bridge with timers := { State.reset.timers with
      a3 := ⟨.down, true, .tick 3, 3, 2, false, 3, .down, none, none, 7⟩ } })).timers.a3 =
      ⟨.down, true, .tick 3, 3, 2, true, 3, .down, none, none, 0⟩ := by decide +kernel
theorem test_timer_stop_of_stopped :
    (after (.timerStop 3 (crc8 [3, 0x21, 3])) (ready bridge)).mgmt.reply = [0xC4] := by decide +kernel
theorem test_timer_preset_down :
    (after (.timerPreset 3 (crc8 [3, 0x22, 3])) (ready { bridge with timers := { State.reset.timers with
      a3 := ⟨.down, true, .tick 3, 3, 2, true, 1, .down, some 5, none, 7⟩ } })).timers.a3 =
      ⟨.down, true, .tick 3, 3, 2, true, 3, .down, some 5, none, 0⟩ := by decide +kernel
theorem test_set_cmt :
    (after (.setCmt 0x12 (crc8 [3, 0x30, 0x12])) (ready bridge)).lines.a2 =
      ⟨.level, .activeHigh, 4, true, true, 0⟩ := by decide +kernel

/-- R48: with the engine free, the seal of an empty open epoch completes within it. -/
theorem test_seal_of_empty_epoch :
    (after (.sealGroup 2 (crc8 [0x03, 0x12, 2])) (ready bridge)).groups.a2 =
      { grp .running 2 1 false 0 0 2 with cfg := (grp .running 1 0 false 0 0 2).cfg } := by decide +kernel

/-! ## Witnesses

For each statement with hypotheses, states and operands that meet them, clause by clause. Hypotheses that only name an
abbreviation (`x = …` or `bad ↔ …`, for a variable of the statement) are met by taking the variable to be that, and are
left out. -/

/-! ### Queue and resets -/

theorem witness_StepTakesTheFrontCommand :
    ∃ (s : State) (c : Instr) (rest : List Instr), s.pending = c :: rest :=
  ⟨{ midDrain with pending := [.memoryGrant, .drainStart] }, .memoryGrant, [.drainStart], rfl⟩

/-- The last edge but one of a period, its last edge, and the one edge of a period of 1. -/
theorem witness_EmptyQueuePassesOneRefclkEdge :
    (∃ s : State, s.pending = [] ∧ s.inReset = true) ∧
    (∃ s : State, s.pending = [] ∧ s.inReset = false ∧ s.tick.count + 1 < s.tick.inForce ∧
      s.tick.count + 2 = s.tick.inForce) ∧
    (∃ s : State, s.pending = [] ∧ s.inReset = false ∧ s.tick.inForce = s.tick.count + 1 ∧ s.tick.count = 24) ∧
    (∃ s : State, s.pending = [] ∧ s.inReset = false ∧ s.tick.inForce = s.tick.count + 1 ∧ s.tick.count = 0) :=
  ⟨⟨{ State.reset with inReset := true }, rfl, rfl⟩,
   ⟨{ State.reset with tick := ⟨25, 25, 23⟩ }, rfl, rfl, by decide, by decide⟩,
   ⟨{ State.reset with tick := ⟨25, 25, 24⟩ }, rfl, rfl, by decide, by decide⟩,
   ⟨{ State.reset with tick := ⟨1, 1, 0⟩ }, rfl, rfl, by decide, by decide⟩⟩

/-- RSTn is not asserted; it is asserted and five requests wait at HP. -/
theorem witness_RstnHoldsAndReleasesThePart :
    (∃ s : State, s.inReset = false) ∧
    (∃ s : State, s.inReset = true ∧ s.hp.slots = [] ∧ s.cp.slots = [] ∧ s.hp.offered.length = 5) :=
  ⟨⟨midDrain, rfl⟩,
   ⟨{ State.reset with inReset := true, hp := ⟨[], List.replicate 5 (rd 0x10 1), none⟩ }, rfl, rfl, rfl, rfl⟩⟩

theorem witness_SoftResetEndsAllStagingWork :
    ∃ (s : State) (crc : Byte), RequestReady s [0x03, 0x03, 0x00] crc ∧ s.mode = .active ∧ s.queue ≠ [] :=
  ⟨ready midDrain, _, ready_any _ _, rfl, by decide⟩

/-! ### Ports -/

/-- RSTn asserted; four slots occupied; three slots occupied. -/
theorem witness_RequestAcceptFillsAFreeSlot :
    (∃ s : State, s.inReset = true) ∧
    (∃ (s : State) (p : PortId), s.inReset = false ∧ (s.port p).slots.length = 4) ∧
    (∃ (s : State) (p : PortId), s.inReset = false ∧ (s.port p).slots.length = 3 ∧ (s.port p).offered = []) :=
  ⟨⟨{ State.reset with inReset := true }, rfl⟩,
   ⟨{ bridge with cp := ⟨four.map (fun i => ⟨i, rd 0x10 1, .issued⟩), [], none⟩ }, .cp, rfl, rfl⟩,
   ⟨{ bridge with cp := ⟨[⟨0, rd 0x10 1, .issued⟩, ⟨1, rd 0x10 1, .issued⟩, ⟨3, rd 0x10 1, .waiting⟩], [], none⟩ },
    .cp, rfl, rfl, rfl⟩⟩

/-- No slot; an unanswered oldest request; an answered one alone; an answered one of four with a request outside. -/
theorem witness_ResponseDeliveryFreesTheOldestSlot :
    (∃ (s : State) (p : PortId), ∀ sl ∈ (s.port p).slots.head?.toList, ∀ resp, sl.phase ≠ .answered resp) ∧
    (∃ (s : State) (p : PortId), (s.port p).slots ≠ [] ∧
      ∀ sl ∈ (s.port p).slots.head?.toList, ∀ resp, sl.phase ≠ .answered resp) ∧
    (∃ (s : State) (p : PortId) (i : Fin 4) (q : Request) (resp : Response) (rest : List Slot),
      (s.port p).slots = ⟨i, q, .answered resp⟩ :: rest ∧ (s.port p).offered = []) ∧
    (∃ (s : State) (p : PortId) (i : Fin 4) (q : Request) (resp : Response) (rest : List Slot) (r : Request)
      (more : List Request), (s.port p).slots = ⟨i, q, .answered resp⟩ :: rest ∧ (s.port p).offered = r :: more ∧
      rest.length = 3) :=
  ⟨⟨bridge, .hp, by simp [State.port, bridge, State.reset, Port.reset]⟩,
   ⟨{ bridge with hp := one (rd 0x10 1) .issued }, .hp, by simp [State.port, one], by simp [State.port, one]⟩,
   ⟨{ bridge with hp := one (rd 0x10 1) (.answered ⟨.full 2, []⟩) }, .hp, 0, rd 0x10 1, ⟨.full 2, []⟩, [], rfl, rfl⟩,
   ⟨{ bridge with hp := ⟨⟨0, rd 0x10 1, .answered ⟨.memory, []⟩⟩ ::
        [⟨1, rd 0x10 1, .issued⟩, ⟨2, rd 0x10 1, .issued⟩, ⟨3, rd 0x10 1, .waiting⟩], [rd 0x20 1], none⟩ },
    .hp, 0, rd 0x10 1, ⟨.memory, []⟩, _, rd 0x20 1, [], rfl, rfl, rfl⟩⟩

/-- The ALIGN fault; burst counts 0 and 9; the SPAN fault of Section 1.3.1; a request of 8 words in BYPASS. -/
theorem witness_HeadProcessingChecksForm :
    (∃ (s : State) (p : PortId) (i : Fin 4) (r : Request), (s.port p).head? = some ⟨i, r, .waiting⟩ ∧
      r.addr.toNat % 4 ≠ 0) ∧
    (∃ (s : State) (p : PortId) (i : Fin 4) (r : Request), (s.port p).head? = some ⟨i, r, .waiting⟩ ∧
      r.addr.toNat % 4 = 0 ∧ r.count.toNat = 0) ∧
    (∃ (s : State) (p : PortId) (i : Fin 4) (r : Request), (s.port p).head? = some ⟨i, r, .waiting⟩ ∧
      r.addr.toNat % 4 = 0 ∧ r.count.toNat = 9) ∧
    (∃ (s : State) (p : PortId) (i : Fin 4) (r : Request), (s.port p).head? = some ⟨i, r, .waiting⟩ ∧
      FormSound r ∧ s.mode ≠ .bypass ∧ outsideAll s r = false ∧ ∀ n : Fin 8, insideOne s n r = false) ∧
    (∃ (s : State) (p : PortId) (i : Fin 4) (r : Request), (s.port p).head? = some ⟨i, r, .waiting⟩ ∧
      FormSound r ∧ r.count.toNat = 8 ∧ s.mode = .bypass) :=
  ⟨⟨hostAsks (rd 0x20001002 1), .hp, 0, _, rfl, by decide⟩,
   ⟨hostAsks (rd 0x20001000 0), .hp, 0, _, rfl, by decide, rfl⟩,
   ⟨consumerAsks (rd 0x20001000 9), .cp, 0, _, rfl, by decide, rfl⟩,
   ⟨hostAsks (rd 0x20000FFC 2), .hp, 0, _, rfl, by decide, by decide, by decide +kernel, by decide +kernel⟩,
   ⟨{ hostAsks (rd 0x20000FFC 8) with mode := .bypass }, .hp, 0, _, rfl, by decide, rfl, rfl⟩⟩

/-- Each column of the tables of R10 and R11 that the statement covers. -/
theorem witness_RequestsAreHandledByClass :
    (∃ (s : State) (i : Fin 4) (r : Request), s.hp.head? = some ⟨i, r, .waiting⟩ ∧ FormSound r ∧ s.mode ≠ .bypass ∧
      WindowsApart s ∧ outsideAll s r = true) ∧
    (∃ (s : State) (i : Fin 4) (r : Request) (n : Fin 8), s.hp.head? = some ⟨i, r, .waiting⟩ ∧ FormSound r ∧
      s.mode ≠ .bypass ∧ WindowsApart s ∧ insideOne s n r = true ∧ (s.windows.get n).kind = .locked ∧ r.kind = .write) ∧
    (∃ (s : State) (i : Fin 4) (r : Request) (n : Fin 8), s.hp.head? = some ⟨i, r, .waiting⟩ ∧ FormSound r ∧
      s.mode ≠ .bypass ∧ WindowsApart s ∧ insideOne s n r = true ∧ (s.windows.get n).kind = .locked ∧ r.kind = .read) ∧
    (∃ (s : State) (i : Fin 4) (r : Request) (n : Fin 8), s.hp.head? = some ⟨i, r, .waiting⟩ ∧ FormSound r ∧
      s.mode ≠ .bypass ∧ WindowsApart s ∧ insideOne s n r = true ∧ (s.windows.get n).kind = .staged ∧
      (s.group (s.windows.get n).group).state = .disabled) ∧
    (∃ (s : State) (i : Fin 4) (r : Request) (n : Fin 8), s.hp.head? = some ⟨i, r, .waiting⟩ ∧ FormSound r ∧
      s.mode ≠ .bypass ∧ WindowsApart s ∧ insideOne s n r = true ∧ (s.windows.get n).kind = .staged ∧
      (s.group (s.windows.get n).group).state = .stopping ∧ r.kind = .write) ∧
    (∃ (s : State) (i : Fin 4) (r : Request) (n : Fin 8), s.hp.head? = some ⟨i, r, .waiting⟩ ∧ FormSound r ∧
      s.mode ≠ .bypass ∧ WindowsApart s ∧ insideOne s n r = true ∧ (s.windows.get n).kind = .staged ∧
      (s.group (s.windows.get n).group).state ≠ .disabled ∧ r.kind = .read ∧ (s.windows.get n).forward = false) ∧
    (∃ (s : State) (i : Fin 4) (r : Request), s.cp.head? = some ⟨i, r, .waiting⟩ ∧ FormSound r ∧ s.mode ≠ .bypass ∧
      WindowsApart s ∧ outsideAll s r = true) ∧
    (∃ (s : State) (i : Fin 4) (r : Request) (n : Fin 8), s.cp.head? = some ⟨i, r, .waiting⟩ ∧ FormSound r ∧
      s.mode ≠ .bypass ∧ WindowsApart s ∧ insideOne s n r = true ∧ r.kind = .write ∧ (s.windows.get n).kind = .locked) ∧
    (∃ (s : State) (i : Fin 4) (r : Request) (n : Fin 8), s.cp.head? = some ⟨i, r, .waiting⟩ ∧ FormSound r ∧
      s.mode ≠ .bypass ∧ WindowsApart s ∧ insideOne s n r = true ∧ r.kind = .write ∧
      (s.group (s.windows.get n).group).state ≠ .disabled) ∧
    (∃ (s : State) (i : Fin 4) (r : Request) (n : Fin 8), s.cp.head? = some ⟨i, r, .waiting⟩ ∧ FormSound r ∧
      s.mode ≠ .bypass ∧ WindowsApart s ∧ insideOne s n r = true ∧ (s.windows.get n).kind = .locked ∧ r.kind = .read) ∧
    (∃ (s : State) (i : Fin 4) (r : Request) (n : Fin 8), s.cp.head? = some ⟨i, r, .waiting⟩ ∧ FormSound r ∧
      s.mode ≠ .bypass ∧ WindowsApart s ∧ insideOne s n r = true ∧ (s.windows.get n).kind = .staged ∧ r.kind = .read) ∧
    (∃ (s : State) (i : Fin 4) (r : Request) (n : Fin 8), s.cp.head? = some ⟨i, r, .waiting⟩ ∧ FormSound r ∧
      s.mode ≠ .bypass ∧ WindowsApart s ∧ insideOne s n r = true ∧ (s.windows.get n).kind = .staged ∧
      (s.group (s.windows.get n).group).state = .disabled) :=
  ⟨⟨hostAsks (rd 0x30000000 8), 0, _, rfl, by decide, by decide, apart, by decide +kernel⟩,
   ⟨hostAsks (wr 0x20001040 [full 1]), 0, _, 1, rfl, by decide, by decide, apart, by decide +kernel, rfl, rfl⟩,
   ⟨hostAsks (rd 0x200010FC 1), 0, _, 1, rfl, by decide, by decide, apart, by decide +kernel, rfl, rfl⟩,
   ⟨{ hostAsks (wr 0x20000FF8 [full 1, full 2]) with groups := Four.all GroupRec.reset }, 0, _, 0, rfl, by decide,
    by decide, apart, by decide +kernel, rfl, rfl⟩,
   ⟨{ hostAsks (wr 0x20000FF8 [full 1, full 2]) with groups := Four.all (grp .stopping 2 0 true 0 1 6) }, 0, _, 0, rfl,
    by decide, by decide, apart, by decide +kernel, rfl, rfl, rfl⟩,
   ⟨hostAsks (rd 0x20000FFC 1), 0, _, 0, rfl, by decide, by decide, apart, by decide +kernel, rfl, by decide, rfl, rfl⟩,
   ⟨consumerAsks (rd 0x30000000 8), 0, _, rfl, by decide, by decide, apart, by decide +kernel⟩,
   ⟨consumerAsks (wr 0x20001000 [full 1]), 0, _, 1, rfl, by decide, by decide, apart, by decide +kernel, rfl, rfl⟩,
   ⟨consumerAsks (wr 0x20002010 [full 1]), 0, _, 2, rfl, by decide, by decide, apart, by decide +kernel, rfl, by decide⟩,
   ⟨consumerAsks (rd 0x20001000 1), 0, _, 1, rfl, by decide, by decide, apart, by decide +kernel, rfl, rfl⟩,
   ⟨consumerAsks (rd 0x20002000 8), 0, _, 2, rfl, by decide, by decide, apart, by decide +kernel, rfl, rfl⟩,
   ⟨{ consumerAsks (wr 0x20002000 [full 1]) with groups := Four.all GroupRec.reset }, 0, _, 2, rfl, by decide, by decide,
    apart, by decide +kernel, rfl, rfl⟩⟩

/-- A write of two words into a group whose quota is 2 and which holds nothing: the *need* just fits. -/
theorem witness_HostWriteAdmittedWhole :
    ∃ (s : State) (i : Fin 4) (r : Request) (n : Fin 8) (g : Fin 4),
      s.hp.head? = some ⟨i, r, .waiting⟩ ∧ FormSound r ∧ r.kind = .write ∧ r.beats.length = r.count.toNat ∧
      s.mode ≠ .bypass ∧ WindowsApart s ∧ insideOne s n r = true ∧ (s.windows.get n).kind = .staged ∧
      (s.windows.get n).group = g ∧ ((s.group g).state = .running ∨ (s.group g).state = .faulted) ∧
      need s.queue g r + ((s.group g).openCount + (s.group g).sealedCount) = (s.group g).cfg.quota ∧
      need s.queue g r + s.queue.length ≤ 512 :=
  ⟨hostAsks (wr 0x20004000 [full 1, full 2]), 0, _, 3, 2, rfl, by decide, rfl, rfl, by decide, apart, by decide +kernel,
   rfl, rfl, .inl rfl, by decide +kernel, by decide +kernel⟩

/-- A write one word too large, under REFUSE; the one of Section 2.3.1's kind, under STALL, with and without a timer. -/
theorem witness_HostWriteNotAdmittedIsRefusedOrHeld :
    (∃ (s : State) (i : Fin 4) (r : Request) (n : Fin 8) (g : Fin 4),
      s.hp.head? = some ⟨i, r, .waiting⟩ ∧ FormSound r ∧ r.kind = .write ∧ s.mode ≠ .bypass ∧ WindowsApart s ∧
      insideOne s n r = true ∧ (s.windows.get n).kind = .staged ∧ (s.windows.get n).group = g ∧
      ((s.group g).state = .running ∨ (s.group g).state = .faulted) ∧
      (s.group g).cfg.quota + 1 = need s.queue g r + ((s.group g).openCount + (s.group g).sealedCount) ∧
      (s.windows.get n).policy = .refuse) ∧
    (∃ (s : State) (i : Fin 4) (r : Request) (n : Fin 8) (g : Fin 4),
      s.hp.head? = some ⟨i, r, .waiting⟩ ∧ FormSound r ∧ r.kind = .write ∧ s.mode ≠ .bypass ∧ WindowsApart s ∧
      insideOne s n r = true ∧ (s.windows.get n).kind = .staged ∧ (s.windows.get n).group = g ∧
      ((s.group g).state = .running ∨ (s.group g).state = .faulted) ∧
      (s.group g).cfg.quota + 1 = need s.queue g r + ((s.group g).openCount + (s.group g).sealedCount) ∧
      (s.windows.get n).policy = .stall ∧ (s.group g).cfg.stallTimeout = 1000) ∧
    (∃ (s : State) (i : Fin 4) (r : Request) (n : Fin 8) (g : Fin 4),
      s.hp.head? = some ⟨i, r, .waiting⟩ ∧ FormSound r ∧ r.kind = .write ∧ s.mode ≠ .bypass ∧ WindowsApart s ∧
      insideOne s n r = true ∧ (s.windows.get n).kind = .staged ∧ (s.windows.get n).group = g ∧
      ((s.group g).state = .running ∨ (s.group g).state = .faulted) ∧
      (s.group g).cfg.quota + 1 = need s.queue g r + ((s.group g).openCount + (s.group g).sealedCount) ∧
      (s.windows.get n).policy = .stall ∧ (s.group g).cfg.stallTimeout = 0) :=
  ⟨⟨hostAsks (wr 0x20004000 [full 1, full 2, full 3]), 0, _, 3, 2, rfl, by decide, rfl, by decide, apart,
    by decide +kernel, rfl, rfl, .inl rfl, by decide +kernel, rfl⟩,
   ⟨hostAsks (wr 0x20000000 (List.replicate 7 (full 1))), 0, _, 0, 0, rfl, by decide, rfl, by decide, apart,
    by decide +kernel, rfl, rfl, .inl rfl, by decide +kernel, rfl, rfl⟩,
   ⟨{ hostAsks (wr 0x20000000 [full 1, full 2]) with
      groups := { bridge.groups with a0 := { GroupRec.reset with
        cfg := { GroupCfg.reset with quota := 1, stallTimeout := 0 }, state := .faulted } } }, 0, _, 0, 0, rfl, by decide,
    rfl, by decide, apart, by decide +kernel, rfl, rfl, .inr rfl, by decide +kernel, rfl, rfl⟩⟩

/-- A word covered in full by its sealed and open parts together; the word of Section 11.9, which is not. Overlay sources:
a word with no entry of the group, and one with entries of both roles behind one of another group. -/
theorem witness_ForwardedReadAtTheHead :
    (∃ (s : State) (i : Fin 4) (r : Request) (n : Fin 8) (g : Fin 4),
      s.hp.head? = some ⟨i, r, .waiting⟩ ∧ FormSound r ∧ r.kind = .read ∧ s.mode ≠ .bypass ∧ WindowsApart s ∧
      insideOne s n r = true ∧ (s.windows.get n).kind = .staged ∧ (s.windows.get n).group = g ∧
      (s.windows.get n).forward = true ∧ (s.group g).state ≠ .disabled ∧
      ((requestWords r).all (fun a => (overlayOf s.queue g a).full)) = true) ∧
    (∃ (s : State) (i : Fin 4) (r : Request) (n : Fin 8) (g : Fin 4),
      s.hp.head? = some ⟨i, r, .waiting⟩ ∧ FormSound r ∧ r.kind = .read ∧ s.mode ≠ .bypass ∧ WindowsApart s ∧
      insideOne s n r = true ∧ (s.windows.get n).kind = .staged ∧ (s.windows.get n).group = g ∧
      (s.windows.get n).forward = true ∧ (s.group g).state ≠ .disabled ∧
      ((requestWords r).all (fun a => (overlayOf s.queue g a).full)) = false) ∧
    (∃ (q : List Entry) (g : Fin 4) (a : Addr), q ≠ [] ∧ ∀ e ∈ q, ¬ (e.group = g ∧ e.role = .sealed ∧ e.addr = a)) ∧
    (∃ (q : List Entry) (g : Fin 4) (a : Addr) (role : Role) (e : Entry) (l1 l2 : List Entry), q = l1 ++ e :: l2 ∧
      e.group = g ∧ e.role = role ∧ e.addr = a ∧ l1 ≠ [] ∧ l2 ≠ [] ∧
      ∀ y ∈ l1, ¬ (y.group = g ∧ y.role = role ∧ y.addr = a)) :=
  ⟨⟨{ hostAsks (rd 0x20002000 1) with
      queue := [e1, ent 1 .opened 0x20002000 ⟨0, 0, 0xC2, 0xC3⟩ ⟨false, false, true, true⟩ .notIssued] }, 0, _, 2, 1, rfl,
    by decide, rfl, by decide, apart, by decide +kernel, rfl, rfl, rfl, by decide, by decide +kernel⟩,
   ⟨{ hostAsks (rd 0x20002000 1) with queue := [e1, f1] }, 0, _, 2, 1, rfl, by decide, rfl, by decide, apart,
    by decide +kernel, rfl, rfl, rfl, by decide, by decide +kernel⟩,
   ⟨[f1], 1, 0x20002000, by decide, by decide⟩,
   ⟨[ent 0 .sealed 0x20002000 Word.zero LaneMask.full .issued, e1, f1], 1, 0x20002000, .sealed, e1, [_], [f1], rfl, rfl, rfl,
    rfl, by decide, by decide, by decide⟩⟩

/-- Section 8.7, step 1, with the record full: its monitor is hit, and CAPTURE_OVERWRITE is caused. -/
theorem witness_MonitorsSeeTheHeadRequest :
    ∃ (s : State) (p : PortId) (i : Fin 4) (r : Request) (hit : Fin 4 → Option Addr) (caused : EventFlag → Bool),
      (s.port p).head? = some ⟨i, r, .waiting⟩ ∧
      (∀ m : Fin 4, hit m =
        if (s.monitors.get m).cfg.enabled = true ∧
            (s.monitors.get m).cfg.streams.has (PortId.requester p) = true ∧
            (s.monitors.get m).cfg.kinds.has r.kind = true then
          ((List.range (if r.count.toNat = 0 then 1 else r.count.toNat)).map
              (fun k => BitVec.ofNat 32 (r.addr.toNat / 4 * 4 + 4 * k))).find?
            (fun a => decide ((s.monitors.get m).cfg.low.toNat ≤ a.toNat ∧
              a.toNat ≤ (s.monitors.get m).cfg.high.toNat))
        else none) ∧
      (∀ f : EventFlag, caused f = match f with
        | .hit m => (hit m).isSome
        | .captureOverwrite => four.any (fun m => (hit m).isSome && (s.monitors.get m).capture.full)
        | _ => false) ∧
      hit 1 = some 0x20002000 ∧ hit 0 = none ∧ caused .captureOverwrite = true :=
  ⟨{ hostAsks (wr 0x20001FFC [full 1, full 2]) with
      monitors := { State.reset.monitors with a1 := { Monitor.reset with
        cfg := ⟨true, 0x20002000, 0x2000201C, ⟨true, false, true⟩, ⟨false, true⟩, 1⟩
        capture := ⟨true, .ce, .write, 0x20002004, 3, 7⟩ } } }, .hp, 0, _, _, _, rfl, fun _ => rfl, fun _ => rfl,
    by decide +kernel, by decide +kernel, by decide +kernel⟩

/-! ### The arbiter -/

/-- No grant under RSTn, with the list full, with nobody waiting; the last requester of the order is granted with room
for one record; a pass-through and a forwarded head are chosen; a fenced head, one that is not, an engine at its limit but
one. -/
theorem witness_MemoryGrantRotatesAndPlaces :
    (∃ s : State, s.inReset = true) ∧ (∃ s : State, s.issue.length = 8) ∧
    (∃ s : State, ∀ x : Requester, waits s x = false) ∧
    (∃ s : State, s.pointer = .cp ∧ waits s .ce = false ∧ waits s .hp = false ∧ waits s .cp = true ∧ s.inReset = false ∧
      s.issue.length = 7) ∧
    (∃ s : State, s.pointer = .hp ∧ waits s .cp = true ∧ s.inReset = false ∧ s.issue.length < 8) ∧
    (∃ s : State, s.pointer = .ce ∧ waits s .hp = true ∧ s.inReset = false ∧ s.issue.length < 8) ∧
    (∃ (s : State) (p : PortId) (i : Fin 4) (r : Request) (cls : ReqClass), chosen s = some (PortId.requester p) ∧
      (s.port p).head? = some ⟨i, r, .head cls .passThrough⟩) ∧
    (∃ (s : State) (p : PortId) (i : Fin 4) (r : Request) (cls : ReqClass), chosen s = some (PortId.requester p) ∧
      (s.port p).head? = some ⟨i, r, .head cls .forwarded⟩) ∧
    (∃ (s : State) (r : Request) (g : Fin 4), WindowsApart s ∧ NeedsMemory s .cp r ∧ r.kind = .read ∧
      s.engine.state = .draining g ∧ (requestWords r).any (inWindowOf s g) = true) ∧
    (∃ (s : State) (r : Request), WindowsApart s ∧ NeedsMemory s .cp r ∧ waits s .cp = true) ∧
    (∃ s : State, s.engine.writeCount = 3 ∧ waits s .ce = true) :=
  ⟨⟨{ State.reset with inReset := true }, rfl⟩,
   ⟨{ midDrain with issue := List.replicate 8 (ceRec e1) }, rfl⟩,
   ⟨bridge, fun x => by cases x <;> rfl⟩,
   ⟨{ bridge with
      pointer := .cp, cp := one (rd 0x10 1) (.head .outside .passThrough)
      issue := List.replicate 7 ⟨.hp, rd 0x10 1, none, none, none, true⟩ }, rfl, rfl, rfl, rfl, rfl, rfl⟩,
   ⟨{ bridge with pointer := .hp, cp := one (rd 0x10 1) (.head .outside .passThrough) }, rfl, rfl, rfl, by decide⟩,
   ⟨midDrain, rfl, rfl, rfl, by decide⟩,
   ⟨{ bridge with cp := one (rd 0x10 1) (.head .outside .passThrough) }, .cp, 0, _, _, by decide +kernel, rfl⟩,
   ⟨midDrain, .hp, 0, _, _, by decide +kernel, rfl⟩,
   ⟨{ midDrain with cp := one (rd 0x20002020 4) (.head (.staged 2 1 true .stall) .passThrough) }, rd 0x20002020 4, 1, apart,
    .inl ⟨0, _, rfl⟩, rfl, rfl, by decide +kernel⟩,
   ⟨{ bridge with cp := one (rd 0x10 1) (.head .outside .passThrough) }, rd 0x10 1, apart, .inl ⟨0, _, rfl⟩, rfl⟩,
   ⟨{ bridge with
      queue := [ent 2 .sealed 0x20004000 Word.zero LaneMask.full .notIssued]
      engine := ⟨.draining 2, 3, []⟩ }, rfl, by decide +kernel⟩⟩

/-- A state of a drain with three commit writes outstanding and the two kinds of entry the engine may offer. -/
def offering (retry : List Addr) (is : IssueState) : State :=
  { bridge with
    queue := [ent 2 .sealed 0x20004000 Word.zero LaneMask.full is]
    engine := ⟨.draining 2, 3, retry⟩ }

/-- An entry of the retry list; an entry that is not issued; three writes are outstanding in both. A monitor of the CE stream
with a full record that the commit write hits. -/
theorem witness_MemoryGrantIssuesACommitWrite :
    (∃ (s : State) (g : Fin 4) (e : Entry) (a : Addr), chosen s = some .ce ∧ s.engine.state = .draining g ∧
      s.engine.retry = [a] ∧ s.queue.find? (Entry.at g .sealed a) = some e ∧ s.engine.writeCount = 3) ∧
    (∃ (s : State) (g : Fin 4) (e : Entry), chosen s = some .ce ∧ s.engine.state = .draining g ∧
      s.engine.retry = [] ∧ s.engine.writeCount = 3 ∧
      s.queue.find? (fun x => x.group == g && x.role == .sealed && x.issue == .notIssued) = some e) ∧
    (∃ (s : State) (g : Fin 4) (e : Entry) (m : Fin 4) (c : MonCfg), chosen s = some .ce ∧ s.engine.state = .draining g ∧
      s.engine.retry = [] ∧ (s.monitors.get m).cfg = c ∧ (s.monitors.get m).capture.full = true ∧
      s.queue.find? (fun x => x.group == g && x.role == .sealed && x.issue == .notIssued) = some e ∧
      c.enabled = true ∧ c.streams.has .ce = true ∧ c.kinds.has .write = true ∧
      c.low.toNat ≤ e.addr.toNat ∧ e.addr.toNat = c.high.toNat) :=
  ⟨⟨offering [0x20004000] .reissued, 2, _, 0x20004000, by decide +kernel, rfl, rfl, rfl, rfl⟩,
   ⟨offering [] .notIssued, 2, _, by decide +kernel, rfl, rfl, rfl, rfl⟩,
   ⟨{ offering [] .notIssued with monitors := { State.reset.monitors with a1 := { Monitor.reset with
        cfg := ⟨true, 0x20002000, 0x20004000, ⟨false, false, true⟩, ⟨false, true⟩, 1⟩
        capture := ⟨true, .ce, .write, 0x20002004, 3, 7⟩ } } }, 2, _, 1, _, by decide +kernel, rfl, rfl, rfl, rfl, rfl, rfl,
    rfl, rfl, by decide, by decide⟩⟩

/-- The laws of the table hold of the drain of Section 11.9. -/
theorem midDrain_staging : StagingSound midDrain := by
  refine ⟨by decide +kernel, by decide +kernel, by decide +kernel, by decide +kernel, by decide +kernel⟩

theorem midDrain_table : TableSound midDrain := by
  refine ⟨midDrain_staging, by decide +kernel, apart, by decide +kernel, by decide +kernel, by decide +kernel,
    by decide +kernel⟩

theorem outside_write_clear :
    TableSound { bridge with hp := one (wr 0x30000000 [full 1]) (.head .outside .passThrough) } := by
  refine ⟨⟨by decide +kernel, by decide +kernel, by decide +kernel, by decide +kernel, by decide +kernel⟩,
    by decide +kernel, apart, by decide +kernel, by decide +kernel, by decide +kernel, by decide +kernel⟩

/-- A consumer read outside the windows, granted during a drain; a fenced read that waits alone (Section 5.4.1, step 4);
a host write, granted while the table and the staging path agree. -/
theorem witness_MemoryGrantKeepsTheFences :
    (∃ (s t : State) (g : Fin 4) (x : IssueRec), s.engine.state = .draining g ∧ exec .memoryGrant s = .next t ∧
      t.issue = s.issue ++ [x] ∧ x.requester = .cp ∧ x.req.kind = .read ∧ WindowsApart s) ∧
    (∃ (s : State) (g : Fin 4) (i : Fin 4) (r : Request) (cls : ReqClass), s.engine.state = .draining g ∧
      s.cp.head? = some ⟨i, r, .head cls .passThrough⟩ ∧ r.kind = .read ∧ WindowsApart s ∧
      (requestWords r).any (inWindowOf s g) = true ∧ waits s .hp = false ∧ waits s .ce = false) ∧
    (∃ (s t : State) (x : IssueRec), TableSound s ∧ exec .memoryGrant s = .next t ∧ t.issue = s.issue ++ [x] ∧
      x.req.kind = .write ∧ x.requester ≠ .ce) :=
  ⟨⟨{ midDrain with hp := Port.reset, cp := one (rd 0x30000000 8) (.head .outside .passThrough) }, _, 1, _, rfl, rfl, rfl,
    rfl, rfl, apart⟩,
   ⟨{ midDrain with hp := Port.reset, cp := one (rd 0x20002020 4) (.head (.staged 2 1 true .stall) .passThrough) }, 1, 0,
    _, _, rfl, rfl, rfl, apart, by decide +kernel, rfl, by decide +kernel⟩,
   ⟨{ bridge with hp := one (wr 0x30000000 [full 1]) (.head .outside .passThrough) }, _, _, outside_write_clear, rfl, rfl,
    rfl, by decide⟩⟩

/-! ### Answers -/

/-- A record of a port's slot, answered OK or ERROR; no record; an orphan of a port and one of the engine. -/
theorem witness_PassThroughAndStrayAnswersAreRouted :
    (∃ (s : State) (p : PortId) (x : IssueRec) (rest : List IssueRec) (i : Fin 4) (q : Request) (l1 l2 : List Slot),
      s.issue = x :: rest ∧ x.requester = PortId.requester p ∧ x.orphan = false ∧ x.snapshot = none ∧
      x.slot = some i ∧ (s.port p).slots = l1 ++ ⟨i, q, .issued⟩ :: l2 ∧ (∀ sl ∈ l1 ++ l2, sl.id ≠ i) ∧
      l1 ≠ [] ∧ l2 ≠ []) ∧
    (∃ s : State, s.issue = []) ∧
    (∃ (s : State) (x : IssueRec) (rest : List IssueRec), s.issue = x :: rest ∧ x.orphan = true ∧ x.requester ≠ .ce) ∧
    (∃ (s : State) (x : IssueRec) (rest : List IssueRec), s.issue = x :: rest ∧ x.orphan = true ∧ x.requester = .ce) :=
  ⟨⟨{ bridge with
      issue := [⟨.cp, rd 0x10 2, some 1, none, none, false⟩]
      cp := ⟨[⟨0, rd 0x10 2, .answered ⟨.ok, []⟩⟩, ⟨1, rd 0x10 2, .issued⟩, ⟨2, rd 0x10 2, .waiting⟩], [], none⟩ },
    .cp, _, _, 1, _, [⟨0, rd 0x10 2, .answered ⟨.ok, []⟩⟩], [⟨2, rd 0x10 2, .waiting⟩], rfl, rfl, rfl, rfl, rfl, rfl,
    by decide, by decide, by decide⟩,
   ⟨bridge, rfl⟩,
   ⟨{ bridge with issue := [⟨.hp, rd 0x10 2, some 1, none, none, true⟩] }, _, _, rfl, rfl, by decide⟩,
   ⟨{ bridge with issue := [{ ceRec e1 with entry := none, orphan := true }], engine := ⟨.idle, 1, []⟩ }, _, _, rfl, rfl,
    rfl⟩⟩

/-- A forwarded read with its record alone in the list; each lane of the table of R85. -/
theorem witness_ForwardedAnswerMergesTheSnapshot :
    (∃ (s : State) (x : IssueRec) (rest : List IssueRec) (i : Fin 4) (q : Request) (l1 l2 : List Slot)
      (snap : List Overlay), s.issue = x :: rest ∧ x.requester = .hp ∧ x.orphan = false ∧ x.snapshot = some snap ∧
      x.slot = some i ∧ s.hp.slots = l1 ++ ⟨i, q, .issued⟩ :: l2 ∧ ∀ sl ∈ l1 ++ l2, sl.id ≠ i) ∧
    (∃ (lane : Word → Byte) (covers : LaneMask → Bool), lane = Word.lane3 ∧ covers = LaneMask.lane3) :=
  ⟨⟨{ bridge with
      issue := [⟨.hp, rd 0x20002000 1, some 0, some [⟨none, none⟩], none, false⟩]
      hp := one (rd 0x20002000 1) .issued }, _, [], 0, _, [], [], _, rfl, rfl, rfl, rfl, rfl, rfl, by decide⟩,
   ⟨_, _, rfl, rfl⟩⟩

/-- A write of two words held for admission to G2, whose quota is `quota`. -/
def holding (quota : Nat) (cause : HoldCause) : State :=
  { bridge with
    groups := { bridge.groups with a2 := grp .running 1 0 false 0 0 quota }
    hp := one (wr 0x20004000 [full 1, full 2]) (.head (.staged 3 2 false .stall) (.held cause (some 7))) }

/-- No held write; one held for DISABLED; one that misses the quota by one; one that just fits. -/
theorem witness_HeldAdmissionIsRetried :
    (∃ t : State, t.held = none) ∧
    (∃ (t : State) (h : HeldWrite), t.held = some h ∧ h.cause = .disable) ∧
    (∃ (t : State) (h : HeldWrite), t.held = some h ∧ h.cause = .admission ∧
      (t.group h.cls.group).cfg.quota + 1 = need t.queue h.cls.group h.req +
        ((t.group h.cls.group).openCount + (t.group h.cls.group).sealedCount)) ∧
    (∃ (t : State) (h : HeldWrite), t.held = some h ∧ h.cause = .admission ∧
      need t.queue h.cls.group h.req +
        ((t.group h.cls.group).openCount + (t.group h.cls.group).sealedCount) = (t.group h.cls.group).cfg.quota ∧
      need t.queue h.cls.group h.req + t.queue.length ≤ 512) :=
  ⟨⟨bridge, rfl⟩, ⟨holding 2 .disable, _, rfl, rfl⟩, ⟨holding 1 .admission, _, rfl, rfl, by decide +kernel⟩,
   ⟨holding 2 .admission, _, rfl, rfl, by decide +kernel, by decide +kernel⟩⟩

/-- The entry whose commit write is answered. -/
def e2 (is : IssueState) : Entry := ent 2 .sealed 0x20004000 ⟨1, 2, 3, 4⟩ LaneMask.full is

/-- G2 is being drained; the oldest record is the commit write of its entry, and `more` are the entries behind it. -/
def answering (is : IssueState) (st : GroupState) (opened : Nat) (more : List Entry) : State :=
  { bridge with
    groups := { bridge.groups with a2 := grp st 6 4 true opened 1 128 }
    queue := e2 is :: more
    engine := ⟨.draining 2, 1, []⟩
    issue := [ceRec (e2 is)] }

/-- A first ERROR; an OK answer and a second ERROR that leave a SEALED entry of the group. -/
theorem witness_CommitAnswerFollowsTheEntry :
    (∃ (s : State) (x : IssueRec) (rest : List IssueRec) (g : Fin 4) (e : Entry) (l1 l2 : List Entry),
      s.issue = x :: rest ∧ x.requester = .ce ∧ x.orphan = false ∧ x.entry = some ⟨g, e.addr⟩ ∧
      s.engine.state = .draining g ∧ s.queue = l1 ++ e :: l2 ∧ e.group = g ∧ e.role = .sealed ∧
      (∀ y ∈ l1 ++ l2, y.at g .sealed e.addr = false) ∧ e.issue = .issued) ∧
    (∃ (s : State) (x : IssueRec) (rest : List IssueRec) (g : Fin 4) (e : Entry) (l1 l2 : List Entry),
      s.issue = x :: rest ∧ x.requester = .ce ∧ x.orphan = false ∧ x.entry = some ⟨g, e.addr⟩ ∧
      s.engine.state = .draining g ∧ s.queue = l1 ++ e :: l2 ∧ e.group = g ∧ e.role = .sealed ∧
      (∀ y ∈ l1 ++ l2, y.at g .sealed e.addr = false) ∧
      (l1 ++ l2).any (fun y => y.group == g && y.role == .sealed) = true ∧ e.issue = .issued) ∧
    (∃ (s : State) (x : IssueRec) (rest : List IssueRec) (g : Fin 4) (e : Entry) (l1 l2 : List Entry),
      s.issue = x :: rest ∧ x.requester = .ce ∧ x.orphan = false ∧ x.entry = some ⟨g, e.addr⟩ ∧
      s.engine.state = .draining g ∧ s.queue = l1 ++ e :: l2 ∧ e.group = g ∧ e.role = .sealed ∧
      (∀ y ∈ l1 ++ l2, y.at g .sealed e.addr = false) ∧
      (l1 ++ l2).any (fun y => y.group == g && y.role == .sealed) = true ∧ e.issue = .reissued) :=
  ⟨⟨answering .issued .running 0 [], _, [], 2, e2 .issued, [], [], rfl, rfl, rfl, rfl, rfl, rfl, rfl, rfl, by decide,
    rfl⟩,
   ⟨answering .issued .running 0 [ent 2 .sealed 0x20004004 Word.zero LaneMask.full .notIssued], _, [], 2, e2 .issued, [],
    [ent 2 .sealed 0x20004004 Word.zero LaneMask.full .notIssued], rfl, rfl, rfl, rfl, rfl, rfl, rfl, rfl, by decide,
    rfl, rfl⟩,
   ⟨answering .reissued .running 0 [ent 2 .sealed 0x20004004 Word.zero LaneMask.full .notIssued], _, [], 2, e2 .reissued,
    [], [ent 2 .sealed 0x20004004 Word.zero LaneMask.full .notIssued], rfl, rfl, rfl, rfl, rfl, rfl, rfl, rfl, by decide,
    rfl, rfl⟩⟩

/-- The hypotheses of the statement about the answer that ends a drain. -/
def Completes (s base r u : State) (x : IssueRec) (rest : List IssueRec) (g : Fin 4) (e : Entry) (l1 l2 : List Entry)
    (a : AnswerStatus) : Prop :=
  s.issue = x :: rest ∧ x.requester = .ce ∧ x.orphan = false ∧ x.entry = some ⟨g, e.addr⟩ ∧
  s.engine.state = .draining g ∧ s.queue = l1 ++ e :: l2 ∧ e.group = g ∧ e.role = .sealed ∧
  (l1 ++ l2).any (fun y => y.group == g && y.role == .sealed) = false ∧ writeOutstanding rest g = false ∧
  base = { s with
    issue := rest
    queue := l1 ++ l2
    engine := { s.engine with writeCount := s.engine.writeCount - 1 } } ∧
  ((a = .ok ∧ e.issue ≠ .notIssued ∧
      r = retryAdmission { base with
        groups := s.groups.set g { s.group g with sealedCount := (s.group g).sealedCount - 1 } }) ∨
    (a = .error ∧ e.issue = .reissued ∧
      r = retryAdmission (({ base with
        groups := s.groups.set g { s.group g with
          sealedCount := (s.group g).sealedCount - 1
          state := if (s.group g).state = .running then .faulted else (s.group g).state
          fault := if (s.group g).fault.valid then
              { (s.group g).fault with dropped := min ((s.group g).fault.dropped + 1) 255 }
            else ⟨true, e.addr, (s.group g).openEpoch - 1, 1⟩ } } : State).cause (.fault g)))) ∧
  StartTest (completedAt g r) u

/-- The OK answer to the last SEALED entry of G2 meets them all. -/
theorem completes_ok (s : State) (is : IssueState) (l : List Entry) (h1 : s.issue = [ceRec (e2 is)])
    (h2 : s.engine.state = .draining 2) (h3 : s.queue = e2 is :: l) (h4 : is ≠ .notIssued)
    (h5 : l.any (fun y => y.group == 2 && y.role == .sealed) = false) :
    ∃ base r, Completes s base r (testStart (completedAt 2 r)) (ceRec (e2 is)) [] 2 (e2 is) [] l .ok :=
  ⟨_, _, h1, rfl, rfl, rfl, h2, h3, rfl, rfl, h5, rfl, rfl, .inl ⟨rfl, h4, rfl⟩, startTest_iff.mpr rfl⟩

/-- The second ERROR to the last SEALED entry of G2 meets them all. -/
theorem completes_error (s : State) (l : List Entry) (h1 : s.issue = [ceRec (e2 .reissued)])
    (h2 : s.engine.state = .draining 2) (h3 : s.queue = e2 .reissued :: l)
    (h5 : l.any (fun y => y.group == 2 && y.role == .sealed) = false) :
    ∃ base r, Completes s base r (testStart (completedAt 2 r)) (ceRec (e2 .reissued)) [] 2 (e2 .reissued) [] l .error :=
  ⟨_, _, h1, rfl, rfl, rfl, h2, h3, rfl, rfl, h5, rfl, rfl, .inr ⟨rfl, rfl, rfl⟩, startTest_iff.mpr rfl⟩

/-- An OPEN entry of G2. -/
def f2 : Entry := ent 2 .opened 0x20004008 Word.zero LaneMask.full .notIssued
/-- A SEALED entry of G3. -/
def e3 : Entry := ent 3 .sealed 0x20005000 Word.zero LaneMask.full .notIssued

/-- A write to G2's window that waits for DISABLED. -/
def waiter : Port := one (wr 0x20004000 [full 1]) (.head (.staged 3 2 false .refuse) (.held .disable none))

/-- In LEAVING, with every group but G2 DISABLED, and G2's last entry reissued. -/
def leavingLast (hp : Port) : State :=
  { answering .reissued .stopping 0 [] with
    hp := hp, mode := .leaving
    groups := ⟨GroupRec.reset, GroupRec.reset, grp .stopping 6 4 true 0 1 128, GroupRec.reset⟩ }

/-- R180: the answer that ends the last drain brings BYPASS, with no write held. R75: a final seal starts at once. -/
theorem test_last_answer_reaches_bypass :
    (after (.memoryAnswer .error []) (leavingLast Port.reset)).mode = .bypass ∧
    (after (.memoryAnswer .ok []) (answering .issued .stopping 1 [f2])).engine.state = .draining 2 := by decide +kernel

/-- An OK answer at a RUNNING group with nobody waiting, and one at a STOPPING group with an open epoch; a second ERROR with
G3 waiting, and one at the last group to stop in LEAVING, without and with a write held for it. -/
theorem witness_LastCommitAnswerCompletesTheDrain :
    (∃ s base r u x rest g e l1 l2, Completes s base r u x rest g e l1 l2 .ok ∧ (s.group g).state = .running) ∧
    (∃ s base r u x rest g e l1 l2, Completes s base r u x rest g e l1 l2 .ok ∧ (s.group g).state = .stopping ∧
      (s.group g).openCount = 1 ∧ s.chold = false) ∧
    (∃ s base r u x rest g e l1 l2, Completes s base r u x rest g e l1 l2 .error ∧ s.commitReq = [3]) ∧
    (∃ s base r u x rest g e l1 l2, Completes s base r u x rest g e l1 l2 .error ∧ s.mode = .leaving ∧ s.held = none ∧
      ∀ k : Fin 4, k ≠ g → (s.group k).state = .disabled) ∧
    (∃ s base r u x rest g e l1 l2 h, Completes s base r u x rest g e l1 l2 .ok ∧ s.held = some h ∧ h.cls.group = g ∧
      s.mode = .leaving ∧ ∀ k : Fin 4, k ≠ g → (s.group k).state = .disabled) := by
  refine ⟨?_, ?_, ?_, ?_, ?_⟩
  · obtain ⟨b, r, h⟩ := completes_ok (answering .issued .running 0 []) .issued [] rfl rfl rfl (by decide) rfl
    exact ⟨_, b, r, _, _, _, _, _, _, _, h, rfl⟩
  · obtain ⟨b, r, h⟩ := completes_ok (answering .issued .stopping 1 [f2]) .issued [f2] rfl rfl rfl (by decide) rfl
    exact ⟨_, b, r, _, _, _, _, _, _, _, h, rfl, rfl, rfl⟩
  · obtain ⟨b, r, h⟩ := completes_error { answering .reissued .running 0 [e3] with commitReq := [3] } [e3] rfl rfl rfl rfl
    exact ⟨_, b, r, _, _, _, _, _, _, _, h, rfl⟩
  · obtain ⟨b, r, h⟩ := completes_error (leavingLast Port.reset) [] rfl rfl rfl rfl
    exact ⟨_, b, r, _, _, _, _, _, _, _, h, rfl, rfl, by decide⟩
  · obtain ⟨b, r, h⟩ := completes_ok (leavingLast waiter) .reissued [] rfl rfl rfl (by decide) rfl
    exact ⟨_, b, r, _, _, _, _, _, _, _, _, h, rfl, rfl, rfl, by decide⟩

/-! ### Drain starts -/

/-- No start: a drain in progress, nobody waiting, CHOLD asserted; a start with CHOLD released or just being released;
an epoch with nothing to write, alone and with another group behind it, at both commands. -/
theorem witness_DrainStartsAtTheStartTest :
    (∃ s : State, s.engine.state ≠ .idle) ∧ (∃ s : State, s.commitReq = []) ∧ (∃ s : State, s.chold = true) ∧
    (∃ s : State, s.chold = false) ∧
    (∃ (s u : State), s.chold = true ∧ StartTest { s with chold := false } u ∧ u.engine.state = .draining 3) ∧
    (∃ (s : State) (g : Fin 4) (rest : List (Fin 4)), s.engine.state = .idle ∧ s.commitReq = g :: rest ∧
      hasSealedEntry s.queue g = true ∧ s.chold = false) ∧
    (∃ (s : State) (g : Fin 4) (rest : List (Fin 4)), s.engine.state = .idle ∧ s.commitReq = g :: rest ∧
      hasSealedEntry s.queue g = true ∧ s.chold = true) ∧
    (∀ chold : Bool, ∃ (s : State) (g : Fin 4), s.engine.state = .idle ∧ s.commitReq = [g] ∧ s.chold = chold ∧
      hasSealedEntry s.queue g = false ∧ writeOutstanding s.issue g = false ∧ (s.group g).state = .running) ∧
    (∀ chold : Bool, ∃ (s : State) (g h : Fin 4), s.engine.state = .idle ∧ s.commitReq = [g, h] ∧ s.chold = chold ∧
      hasSealedEntry s.queue g = false ∧ writeOutstanding s.issue g = false ∧ (s.group g).state = .running ∧
      hasSealedEntry s.queue h = true) :=
  ⟨⟨midDrain, by decide⟩, ⟨bridge, rfl⟩, ⟨{ bridge with chold := true }, rfl⟩, ⟨bridge, rfl⟩,
   ⟨{ bridge with queue := [e3], commitReq := [3, 0], chold := true }, _, rfl, startTest_iff.mpr rfl, by decide +kernel⟩,
   ⟨{ bridge with queue := [e3], commitReq := [3, 0] }, 3, [0], rfl, rfl, rfl, rfl⟩,
   ⟨{ bridge with queue := [e3], commitReq := [3, 0], chold := true }, 3, [0], rfl, rfl, rfl, rfl⟩,
   fun c => ⟨{ bridge with commitReq := [1], chold := c }, 1, rfl, rfl, rfl, rfl, rfl, rfl⟩,
   fun c => ⟨{ bridge with queue := [e3], commitReq := [1, 3], chold := c }, 1, 3, rfl, rfl, rfl, rfl, rfl, rfl, rfl⟩⟩

/-! ### Time -/

/-- A held write at its last tick, one with ticks to come, one without a timer, none; a line with no pulse, with two ticks to
come, and with the last one to come. -/
theorem witness_ExpiriesEndTheirCounts :
    (∃ (s : State) (h : HeldWrite), s.held = some h ∧ h.timer = some 1) ∧
    (∃ (s : State) (h : HeldWrite) (k : Nat), s.held = some h ∧ h.timer = some k ∧ 1 < k) ∧
    (∃ (s : State) (h : HeldWrite), s.held = some h ∧ h.timer = none) ∧ (∃ s : State, s.held = none) ∧
    (∃ (s : State) (g : Fin 4), (s.lines.get g).countdown = 0) ∧
    (∃ (s : State) (g : Fin 4), (s.lines.get g).countdown = 2) ∧
    (∃ (s : State) (g : Fin 4), (s.lines.get g).countdown = 1) :=
  ⟨⟨{ bridge with hp := one (wr 0x20000000 [full 1]) (.head (.staged 0 0 false .stall) (.held .admission (some 1))) }, _, rfl,
    rfl⟩, ⟨holding 1 .admission, _, 7, rfl, rfl, by decide⟩, ⟨{ bridge with hp := waiter }, _, rfl, rfl⟩, ⟨bridge, rfl⟩,
   ⟨bridge, 0, rfl⟩, ⟨{ bridge with lines := { bridge.lines with a1 := ⟨.pulse, .activeLow, 3, false, true, 2⟩ } }, 1, rfl⟩,
   ⟨{ bridge with lines := { bridge.lines with a1 := ⟨.pulse, .activeLow, 3, false, true, 1⟩ } }, 1, rfl⟩⟩

/-- Timers T0 stopped, T1 before its 8th tick, T2 on SYNC edges, T3 stopped. -/
def ticking : Four Timer :=
  ⟨Timer.reset, ⟨.up, false, .tick 3, 9, 0, true, 4, .up, none, none, 6⟩,
   ⟨.up, false, .sync .both, 9, 0, true, 4, .up, none, none, 0⟩, Timer.reset⟩

/-- The hypotheses of the statement about the service tick. -/
def Ticks (s : State) (stepped : Fin 4 → Bool) (timers : Four Timer) : Prop :=
  s.inReset = false ∧
  (∀ t : Fin 4, stepped t = match (s.timer t).running, (s.timer t).source with
    | true, .tick k => decide (2 ^ k.val ≤ (s.timer t).prescale + 1)
    | _, _ => false) ∧
  timers = s.timers.map (fun x => match x.running, x.source with
    | true, .tick k =>
      if 2 ^ k.val ≤ x.prescale + 1 then Timer.step { x with prescale := 0 } else { x with prescale := x.prescale + 1 }
    | _, _ => x)

/-- A tick whose steps emit no chosen seal source, without a hold timer, with one that goes on, and with one at its last
tick; a tick with a boundary event, no start left undone before it, and a hold timer at its last tick. -/
theorem witness_ServiceTickReachesEveryReceiverOnce :
    (∃ s stepped timers, Ticks s stepped timers ∧ s.held = none ∧ stepped 1 = true ∧
      ∀ t : Fin 4, stepped t = true → (s.group t).cfg.sources.chosenBy (s.timer t).emits = false) ∧
    (∃ s stepped timers h, Ticks s stepped timers ∧ s.held = some h ∧ h.timer = some 7 ∧
      ∀ t : Fin 4, stepped t = true → (s.group t).cfg.sources.chosenBy (s.timer t).emits = false) ∧
    (∃ s stepped timers h, Ticks s stepped timers ∧ s.held = some h ∧ h.timer = some 1 ∧
      ∀ t : Fin 4, stepped t = true → (s.group t).cfg.sources.chosenBy (s.timer t).emits = false) ∧
    (∃ s stepped timers h, Ticks s stepped timers ∧ s.held = some h ∧ h.timer = some 1 ∧ NoStartLeft s ∧ stepped 1 = true ∧
      (s.group 1).cfg.sources.chosenBy (s.timer 1).emits = true) :=
  ⟨⟨{ bridge with timers := { ticking with a1 := { ticking.a1 with prescale := 7 } } }, _, _, ⟨rfl, fun _ => rfl, rfl⟩, rfl,
    by decide +kernel, by decide +kernel⟩,
   ⟨{ holding 1 .admission with timers := ticking }, _, _, _, ⟨rfl, fun _ => rfl, rfl⟩, rfl, rfl, by decide +kernel⟩,
   ⟨{ bridge with
      timers := ticking
      hp := one (wr 0x20000000 [full 1]) (.head (.staged 0 0 false .stall) (.held .admission (some 1))) }, _, _, _,
    ⟨rfl, fun _ => rfl, rfl⟩, rfl, rfl, by decide +kernel⟩,
   ⟨{ bridge with
      queue := [f1]
      timers := { bridge.timers with a1 := ⟨.up, false, .tick 0, 999, 0, true, 999, .up, none, none, 0⟩ }
      groups := { bridge.groups with a1 :=
        { grp .running 1 0 false 1 0 16 with cfg := ⟨16, 0, ⟨true, false, false, false⟩, .rising, false⟩ } }
      hp := one (wr 0x20000000 [full 1]) (.head (.staged 0 0 false .stall) (.held .admission (some 1))) }, _, _, _,
    ⟨rfl, fun _ => rfl, rfl⟩, rfl, rfl, by decide +kernel, by decide +kernel, by decide +kernel⟩⟩

/-- The bridge with T1 as given and G1's seal sources as given. -/
def timed (x : Timer) (src : SealSources) : State :=
  { bridge with
    timers := { bridge.timers with a1 := x }
    groups := { bridge.groups with a1 := { grp .running 1 0 false 0 0 128 with
      cfg := { GroupCfg.reset with sources := src } } } }

/-- No seal source. -/
def noSource : SealSources := ⟨false, false, false, false⟩

/-- The step before the top, the step at the top, and the largest period. -/
theorem witness_TimerUpSteps :
    (∃ (s : State) (t : Fin 4) (x : Timer), s.timer t = x ∧ x.running = true ∧ x.mode = .up ∧
      x.counter.toNat + 1 = x.period.toNat ∧ (s.group t).cfg.sources.chosenBy x.emits = false) ∧
    (∃ (s : State) (t : Fin 4) (x : Timer), s.timer t = x ∧ x.running = true ∧ x.mode = .up ∧
      x.counter = x.period ∧ (s.group t).cfg.sources.chosenBy x.emits = false) ∧
    (∃ (x : Timer) (n : Nat), x.mode = .up ∧ x.counter = 0 ∧ n = x.period.toNat ∧ n = 65535) :=
  ⟨⟨timed ⟨.up, false, .tick 0, 9, 7, true, 8, .up, some 4, some 2, 0⟩ ⟨true, false, false, false⟩, 1, _, rfl, rfl, rfl,
    rfl, rfl⟩,
   ⟨timed ⟨.up, false, .tick 0, 9, 7, true, 9, .up, some 4, some 2, 0⟩ noSource, 1, _, rfl, rfl, rfl, rfl, rfl⟩,
   ⟨⟨.up, false, .tick 0, 65535, 7, true, 0, .up, none, none, 0⟩, 65535, rfl, rfl, rfl, rfl⟩⟩

/-- The step to 0, the reload, and the run of Section 6.6.2. -/
theorem witness_TimerDownSteps :
    (∃ (s : State) (t : Fin 4) (x : Timer), s.timer t = x ∧ x.running = true ∧ x.mode = .down ∧
      x.counter = 1 ∧ (s.group t).cfg.sources.chosenBy x.emits = false) ∧
    (∃ (s : State) (t : Fin 4) (x : Timer), s.timer t = x ∧ x.running = true ∧ x.mode = .down ∧
      x.counter = 0 ∧ (s.group t).cfg.sources.chosenBy x.emits = false) ∧
    (∃ (x : Timer) (n : Nat), x.mode = .down ∧ x.counter = x.period ∧ n = x.period.toNat ∧ n = 3) :=
  ⟨⟨timed ⟨.down, true, .tick 3, 3, 2, true, 1, .down, some 5, none, 0⟩ ⟨true, false, true, false⟩, 1, _, rfl, rfl, rfl,
    rfl, rfl⟩,
   ⟨timed ⟨.down, true, .tick 3, 3, 2, true, 0, .down, some 5, none, 0⟩ noSource, 1, _, rfl, rfl, rfl, rfl, rfl⟩,
   ⟨⟨.down, true, .tick 3, 3, 2, true, 3, .down, none, none, 0⟩, 3, rfl, rfl, rfl, rfl⟩⟩

/-- The steps of Section 6.3.1 up, down and down to 0, and its last step but none. -/
theorem witness_TimerUpDownSteps :
    (∃ (s : State) (t : Fin 4) (x : Timer), s.timer t = x ∧ x.running = true ∧ x.mode = .upDown ∧
      x.direction = .up ∧ x.counter + 1 = x.period ∧ (s.group t).cfg.sources.chosenBy x.emits = false) ∧
    (∃ (s : State) (t : Fin 4) (x : Timer), s.timer t = x ∧ x.running = true ∧ x.mode = .upDown ∧
      x.direction = .down ∧ x.counter ≠ 1 ∧ (s.group t).cfg.sources.chosenBy x.emits = false) ∧
    (∃ (s : State) (t : Fin 4) (x : Timer), s.timer t = x ∧ x.running = true ∧ x.mode = .upDown ∧
      x.direction = .down ∧ x.counter = 1 ∧ (s.group t).cfg.sources.chosenBy x.emits = false) ∧
    (∃ (x : Timer) (n : Nat), x.mode = .upDown ∧ x.counter = 0 ∧ x.direction = .up ∧ x.period ≠ 0 ∧
      n + 1 = 2 * x.period.toNat ∧ n = 7) :=
  ⟨⟨timed ⟨.upDown, false, .tick 0, 4, 1, true, 3, .up, none, none, 0⟩ noSource, 1, _, rfl, rfl, rfl, rfl, rfl, rfl⟩,
   ⟨timed ⟨.upDown, false, .tick 0, 4, 1, true, 4, .down, none, none, 0⟩ noSource, 1, _, rfl, rfl, rfl, rfl, by decide,
    rfl⟩,
   ⟨timed ⟨.upDown, false, .tick 0, 4, 1, true, 1, .down, none, none, 0⟩ ⟨false, true, true, false⟩, 1, _, rfl, rfl, rfl,
    rfl, rfl, rfl⟩,
   ⟨⟨.upDown, false, .tick 0, 4, 1, true, 0, .up, none, none, 0⟩, 7, rfl, rfl, rfl, by decide, rfl, rfl⟩⟩

/-- T1 of Section 3.8 at its WRAP. -/
def wrapping (x : GroupRec) : State :=
  { bridge with
    timers := { bridge.timers with a1 := ⟨.up, false, .tick 0, 999, 0, true, 999, .up, none, none, 0⟩ }
    groups := { bridge.groups with a1 := { x with cfg := ⟨16, 0, ⟨true, false, false, false⟩, .rising, false⟩ } } }

/-- A STOPPED timer; a WRAP at a FAULTED group, at a sealed epoch, at an empty open epoch under *seal empty* = no, at one
entry under CHOLD, at one entry with the engine free, and at an empty open epoch with the engine free. -/
theorem witness_BoundaryEventSealsOrOverruns :
    (∃ (s : State) (t : Fin 4), (s.timer t).running = false) ∧
    (∃ (s : State) (t : Fin 4), (s.timer t).running = true ∧ (s.group t).cfg.sources.chosenBy (s.timer t).emits = true ∧
      (s.group t).state ≠ .running) ∧
    (∃ (s : State) (t : Fin 4), (s.timer t).running = true ∧ (s.group t).cfg.sources.chosenBy (s.timer t).emits = true ∧
      (s.group t).state = .running ∧ (s.group t).hasSealed = true ∧ (s.group t).overruns = 255) ∧
    (∃ (s : State) (t : Fin 4), (s.timer t).running = true ∧ (s.group t).cfg.sources.chosenBy (s.timer t).emits = true ∧
      (s.group t).state = .running ∧ (s.group t).hasSealed = false ∧ (s.group t).openCount = 0 ∧
      (s.group t).cfg.sealEmpty = false) ∧
    (∃ (s : State) (t : Fin 4), (s.timer t).running = true ∧ (s.group t).cfg.sources.chosenBy (s.timer t).emits = true ∧
      (s.group t).state = .running ∧ (s.group t).hasSealed = false ∧ (s.group t).openCount = 1 ∧ s.chold = true) ∧
    (∃ (s s1 u : State) (t : Fin 4), (s.timer t).running = true ∧
      (s.group t).cfg.sources.chosenBy (s.timer t).emits = true ∧
      s1 = { s with timers := s.timers.set t (Timer.step { s.timer t with prescale := 0 }) } ∧
      (s.group t).state = .running ∧ (s.group t).hasSealed = false ∧ (s.group t).openCount = 1 ∧ s.chold = false ∧
      s.engine.state = .idle ∧ s.commitReq = [] ∧ s.queue.any (fun e => e.group == t && e.role == .opened) = true ∧
      StartTest (sealedAt t s1) u) ∧
    (∃ (s : State) (t : Fin 4), (s.timer t).running = true ∧ (s.group t).cfg.sources.chosenBy (s.timer t).emits = true ∧
      (s.group t).state = .running ∧ (s.group t).hasSealed = false ∧ (s.group t).cfg.sealEmpty = true ∧ s.chold = false ∧
      s.engine.state = .idle ∧ s.commitReq = [] ∧ s.queue.any (fun e => e.group == t) = false ∧
      writeOutstanding s.issue t = false) :=
  ⟨⟨bridge, 1, rfl⟩,
   ⟨wrapping (grp .faulted 1 0 false 0 0 16), 1, rfl, rfl, by decide⟩,
   ⟨wrapping { grp .running 2 0 true 2 3 16 with overruns := 255 }, 1, rfl, rfl, rfl, rfl, rfl⟩,
   ⟨wrapping (grp .running 1 0 false 0 0 16), 1, rfl, rfl, rfl, rfl, rfl, rfl⟩,
   ⟨{ wrapping (grp .running 1 0 false 1 0 16) with chold := true, queue := [f1] }, 1, rfl, rfl, rfl, rfl, rfl, rfl⟩,
   ⟨{ wrapping (grp .running 1 0 false 1 0 16) with queue := [f1] }, _, _, 1, rfl, rfl, rfl, rfl, rfl, rfl, rfl, rfl, rfl,
    rfl, startTest_iff.mpr rfl⟩,
   ⟨timed ⟨.up, false, .tick 0, 9, 7, true, 9, .up, none, none, 0⟩ ⟨true, false, false, false⟩, 1, rfl, rfl, rfl, rfl, rfl,
    rfl, rfl, rfl, rfl, rfl⟩⟩

/-- The bridge with SYNC among G1's seal sources, and G1 as given. -/
def synced (x : GroupRec) : State :=
  { bridge with groups := { bridge.groups with a1 :=
    { x with cfg := ⟨16, 0, ⟨false, false, false, true⟩, .rising, false⟩ } } }

/-- The hypotheses about a transition of SYNCt. -/
def Settles (s s0 : State) (t : Fin 4) (level : Bool) (counts bounds : Prop) : Prop :=
  s.inReset = false ∧ s.syncRef.get t ≠ level ∧
  s0 = { s with syncLine := s.syncLine.set t level, syncRef := s.syncRef.set t level } ∧
  (counts ↔ (s.timer t).running = true ∧ ∃ e : Edge, (s.timer t).source = .sync e ∧
    (e = .both ∨ e = if level then .rising else .falling)) ∧
  (bounds ↔ (s.group t).cfg.sources.sync = true ∧
    ((s.group t).cfg.syncEdge = .both ∨ (s.group t).cfg.syncEdge = if level then .rising else .falling))

/-- RSTn asserted; no transition; a transition that nothing takes, that overruns, that seals an epoch which starts at once,
that counts, and that counts with a WRAP which seals an empty epoch. -/
theorem witness_SyncTransitionCountsOrBounds :
    (∃ (s : State), s.inReset = true) ∧ (∃ (s : State) (t : Fin 4) (level : Bool), s.syncRef.get t = level) ∧
    (∃ s s0 t level, Settles s s0 t level False False) ∧
    (∃ s s0 t level u, Settles s s0 t level False True ∧ (s.group t).hasSealed = true ∧ BoundaryGives t s0 u) ∧
    (∃ s s0 t level u, Settles s s0 t level False True ∧ (s.group t).openCount = 1 ∧ BoundaryGives t s0 u ∧
      u.engine.state = .draining t) ∧
    (∃ s s0 t level, Settles s s0 t level True False ∧ (s.group t).cfg.sources.chosenBy (s.timer t).emits = false) ∧
    (∃ s s0 t level u, Settles s s0 t level True False ∧ (s.group t).cfg.sources.chosenBy (s.timer t).emits = true ∧
      BoundaryGives t { s0 with timers := s.timers.set t (s.timer t).step } u ∧ (u.group t).lastCommitted = 1) :=
  ⟨⟨{ State.reset with inReset := true }, rfl⟩, ⟨bridge, 0, false, rfl⟩,
   ⟨{ synced (grp .running 1 0 false 0 0 16) with syncRef := Four.all true }, _, 1, false,
    ⟨rfl, by decide, rfl, ⟨False.elim, fun h => by cases h.1⟩, ⟨False.elim, fun h => by rcases h.2 with h | h <;> cases h⟩⟩⟩,
   ⟨synced (grp .running 2 0 true 1 1 16), _, 1, true, _,
    ⟨rfl, by decide, rfl, ⟨False.elim, fun h => by cases h.1⟩, ⟨fun _ => ⟨rfl, .inr rfl⟩, fun _ => trivial⟩⟩, rfl,
    .overrun rfl rfl⟩,
   ⟨{ synced (grp .running 1 0 false 1 0 16) with queue := [f1] }, _, 1, true, _,
    ⟨rfl, by decide, rfl, ⟨False.elim, fun h => by cases h.1⟩, ⟨fun _ => ⟨rfl, .inr rfl⟩, fun _ => trivial⟩⟩, rfl,
    .seals rfl rfl (.inl (by decide)) (startTest_iff.mpr rfl), by decide +kernel⟩,
   ⟨timed ⟨.up, false, .sync .rising, 9, 0, true, 9, .up, none, none, 0⟩ noSource, _, 1, true,
    ⟨rfl, by decide, rfl, ⟨fun _ => ⟨rfl, .rising, rfl, .inr rfl⟩, fun _ => trivial⟩, ⟨False.elim, fun h => by cases h.1⟩⟩,
    rfl⟩,
   ⟨timed ⟨.up, false, .sync .rising, 9, 0, true, 9, .up, none, none, 0⟩ ⟨true, false, false, false⟩, _, 1, true, _,
    ⟨rfl, by decide, rfl, ⟨fun _ => ⟨rfl, .rising, rfl, .inr rfl⟩, fun _ => trivial⟩, ⟨False.elim, fun h => by cases h.1⟩⟩,
    rfl, .seals rfl rfl (.inr rfl) (startTest_iff.mpr rfl), by decide +kernel⟩⟩

/-! ### The management link -/

/-- A link phase. -/
def linked (m : Mgmt) : State := { bridge with mgmt := m }

/-- Each phase of the link, and RSTn asserted. -/
theorem witness_FramesStartAndEnd :
    (∃ s : State, s.mgmt.phase = .idle ∧ s.inReset = false) ∧ (∃ s : State, s.mgmt.phase = .idle ∧ s.inReset = true) ∧
    (∃ s : State, s.mgmt.phase = .request) ∧ (∃ s : State, s.mgmt.phase = .reply) ∧
    (∃ s : State, s.mgmt.phase = .trailer) ∧ (∃ s : State, s.mgmt.phase = .ignored) :=
  ⟨⟨bridge, rfl, rfl⟩, ⟨{ State.reset with inReset := true }, rfl, rfl⟩, ⟨ready bridge, rfl⟩,
   ⟨linked ⟨.reply, [], none, [0xC0], some 0⟩, rfl⟩, ⟨linked ⟨.trailer, [], none, [], some 0xC0⟩, rfl⟩,
   ⟨linked ⟨.ignored, [], none, [], none⟩, rfl⟩⟩

/-- The last reply byte and one before it; the first byte, the number byte, and the last byte before the CRC byte. -/
theorem witness_ClockedByteMovesThePhase :
    (∃ s : State, s.mgmt.phase = .ignored) ∧ (∃ s : State, s.mgmt.phase = .trailer) ∧
    (∃ (s : State) (x : Byte), s.mgmt.phase = .reply ∧ s.mgmt.reply = [x]) ∧
    (∃ (s : State) (x y : Byte), s.mgmt.phase = .reply ∧ s.mgmt.reply = [x, y]) ∧
    (∃ s : State, s.mgmt.phase = .request ∧ s.mgmt.received = [] ∧ s.mgmt.length = none) ∧
    (∃ (s : State) (cmd : Byte), s.mgmt.phase = .request ∧ s.mgmt.received = [cmd]) ∧
    (∃ (s : State) (n : Nat), s.mgmt.phase = .request ∧ s.mgmt.received.length = 2 ∧ s.mgmt.length = some n ∧
      s.mgmt.received.length + 1 < n ∧ s.mgmt.received.length + 2 = n) :=
  ⟨⟨linked ⟨.ignored, [], none, [], none⟩, rfl⟩, ⟨linked ⟨.trailer, [], none, [], some 0xC0⟩, rfl⟩,
   ⟨linked ⟨.reply, [], none, [0xE5], some 0x19⟩, 0xE5, rfl, rfl⟩,
   ⟨linked ⟨.reply, [], none, [0x19, 0xE5], some 0⟩, 0x19, 0xE5, rfl, rfl⟩, ⟨ready bridge, rfl, rfl, rfl⟩,
   ⟨linked ⟨.request, [0x03], none, [], some 0⟩, 0x03, rfl, rfl⟩,
   ⟨linked ⟨.request, [0x03, 0x12], some 4, [], some 0⟩, 4, rfl, rfl, rfl, by decide, rfl⟩⟩

theorem witness_RequestBytesAndCommandsAgree :
    (∃ (c : Instr) (bytes : List Byte), c.wf = true ∧ encodeRequest c = some bytes) ∧
    (∃ (c : Instr) (bytes : List Byte), decodeRequest bytes = .ok c) :=
  ⟨⟨.sealGroup 2 0xCE, [0x03, 0x12, 0x02, 0xCE], rfl, rfl⟩,
   ⟨.unknownRequest 0x03 0x77 (some 0x01) 0x05, [0x03, 0x77, 0x01, 0x05], rfl⟩⟩

theorem witness_BytesDoWhatTheirCommandDoes :
    ∃ (c : Instr) (bytes : List Byte) (s : State), c.wf = true ∧ encodeRequest c = some bytes ∧
      s.mgmt.phase = .request ∧ s.mgmt.received = [] ∧ s.mgmt.length = none :=
  ⟨.putDevice ⟨0, 50⟩ 0x4C, [0x02, 0x01, 0x00, 0x00, 0x32, 0x4C], ready midDrain, rfl, rfl, rfl, rfl, rfl⟩

/-- A CRC mismatch, at the start of the frame and after two bytes; an unknown GET and an unknown DO; a PUT of a read-only
object; the argument 4; the argument 1 of ACTIVATE, BYPASS and SOFT_RESET; group 4, and level code 2, of SET_CMT. -/
theorem witness_RefusedRequestsChangeNothing :
    (∃ (s : State) (c : Instr) (body : List Byte), s.mgmt.phase = .request ∧ c.wf = true ∧ c.requestBody = some body ∧
      s.mgmt.received.isPrefixOf body = true ∧ crc8 body ≠ c.requestCrc) ∧
    (∃ (s : State) (c : Instr) (body : List Byte), s.mgmt.phase = .request ∧ c.wf = true ∧ c.requestBody = some body ∧
      s.mgmt.received.length = 2 ∧ s.mgmt.received.isPrefixOf body = true ∧ crc8 body ≠ c.requestCrc) ∧
    (∃ (s : State) (cmd num crc : Byte), s.mgmt.phase = .request ∧ (Instr.unknownRequest cmd num none crc).wf = true ∧
      RequestReady s [cmd, num] crc) ∧
    (∃ (s : State) (cmd num arg crc : Byte), s.mgmt.phase = .request ∧
      (Instr.unknownRequest cmd num (some arg) crc).wf = true ∧ RequestReady s [cmd, num, arg] crc) ∧
    (∃ (s : State) (o : Obj) (payload : List Byte) (crc : Byte), s.mgmt.phase = .request ∧ o.readOnly = true ∧
      payload.length = o.length ∧ RequestReady s (0x02 :: o.number :: payload) crc) ∧
    (∃ (s : State) (arg crc : Byte), arg.toNat = 4 ∧ RequestReady s [0x03, 0x10, arg] crc) ∧
    (∃ (s : State) (arg crc : Byte), arg.toNat = 4 ∧ RequestReady s [0x03, 0x11, arg] crc) ∧
    (∃ (s : State) (arg crc : Byte), arg.toNat = 4 ∧ RequestReady s [0x03, 0x12, arg] crc) ∧
    (∃ (s : State) (arg crc : Byte), arg.toNat = 4 ∧ RequestReady s [0x03, 0x13, arg] crc) ∧
    (∃ (s : State) (arg crc : Byte), arg.toNat = 4 ∧ RequestReady s [0x03, 0x14, arg] crc) ∧
    (∃ (s : State) (arg crc : Byte), arg.toNat = 4 ∧ RequestReady s [0x03, 0x20, arg] crc) ∧
    (∃ (s : State) (arg crc : Byte), arg.toNat = 4 ∧ RequestReady s [0x03, 0x21, arg] crc) ∧
    (∃ (s : State) (arg crc : Byte), arg.toNat = 4 ∧ RequestReady s [0x03, 0x22, arg] crc) ∧
    (∃ (s : State) (arg crc : Byte), arg.toNat = 1 ∧ RequestReady s [0x03, 0x01, arg] crc) ∧
    (∃ (s : State) (arg crc : Byte), arg.toNat = 1 ∧ RequestReady s [0x03, 0x02, arg] crc) ∧
    (∃ (s : State) (arg crc : Byte), arg.toNat = 1 ∧ RequestReady s [0x03, 0x03, arg] crc) ∧
    (∃ (s : State) (arg crc : Byte), arg.toNat % 16 = 4 ∧ arg.toNat / 16 = 0 ∧ RequestReady s [0x03, 0x30, arg] crc) ∧
    (∃ (s : State) (arg crc : Byte), arg.toNat % 16 = 3 ∧ arg.toNat / 16 = 2 ∧ RequestReady s [0x03, 0x30, arg] crc) :=
  ⟨⟨ready bridge, .get .device 0x13, [0x01, 0x01], rfl, rfl, rfl, rfl, by decide +kernel⟩,
   ⟨linked ⟨.request, [0x01, 0x01], some 3, [], some 0⟩, .get .device 0x13, [0x01, 0x01], rfl, rfl, rfl, rfl, rfl,
    by decide +kernel⟩,
   ⟨ready bridge, 0x01, 0x05, _, rfl, rfl, ready_any _ _⟩, ⟨ready bridge, 0x03, 0x77, 0x01, _, rfl, rfl, ready_any _ _⟩,
   ⟨ready bridge, .ident, [1, 2, 3, 4], _, rfl, rfl, rfl, ready_any _ _⟩,
   ⟨ready bridge, 4, _, rfl, ready_any _ _⟩, ⟨ready bridge, 4, _, rfl, ready_any _ _⟩,
   ⟨ready bridge, 4, _, rfl, ready_any _ _⟩, ⟨ready bridge, 4, _, rfl, ready_any _ _⟩,
   ⟨ready bridge, 4, _, rfl, ready_any _ _⟩, ⟨ready bridge, 4, _, rfl, ready_any _ _⟩,
   ⟨ready bridge, 4, _, rfl, ready_any _ _⟩, ⟨ready bridge, 4, _, rfl, ready_any _ _⟩,
   ⟨ready bridge, 1, _, rfl, ready_any _ _⟩, ⟨ready bridge, 1, _, rfl, ready_any _ _⟩,
   ⟨ready bridge, 1, _, rfl, ready_any _ _⟩, ⟨ready bridge, 0x04, _, rfl, rfl, ready_any _ _⟩,
   ⟨ready bridge, 0x23, _, rfl, rfl, ready_any _ _⟩⟩

theorem witness_GetReturnsTheObject :
    (∃ (o : Obj) (crc : Byte) (s : State), o.isCapture = false ∧ RequestReady s [0x01, o.number] crc) ∧
    (∃ (m : Fin 4) (crc : Byte) (s : State), RequestReady s [0x01, BitVec.ofNat 8 (0x48 + m.val)] crc) :=
  ⟨⟨.queueStat, _, ready midDrain, rfl, ready_any _ _⟩, ⟨3, _, ready midDrain, ready_any _ _⟩⟩

/-- The three holds of QUEUE_STAT. -/
theorem witness_ObjectBytesAreTheLayouts :
    (∃ s : State, s.held = none) ∧
    (∃ (s : State) (h : HeldWrite), s.held = some h ∧ h.cause = .admission ∧ h.cls.group = 2) ∧
    (∃ (s : State) (h : HeldWrite), s.held = some h ∧ h.cause = .disable ∧ h.cls.group = 2) :=
  ⟨⟨bridge, rfl⟩, ⟨holding 1 .admission, _, rfl, rfl, rfl⟩, ⟨{ bridge with hp := waiter }, _, rfl, rfl, rfl⟩⟩

/-- A PUT of EVENTS and of EVENT_EN; the divisors 0, 257, 1 and 256. -/
theorem witness_DeviceAndEventPutsReplace :
    (∃ (s : State) (v : BitVec 32) (crc : Byte), RequestReady s (0x02 :: 0x03 :: bytes32 v) crc) ∧
    (∃ (s : State) (v : BitVec 32) (crc : Byte), RequestReady s (0x02 :: 0x04 :: bytes32 v) crc) ∧
    (∀ n ∈ [0, 257, 1, 256], ∃ (s : State) (v : DeviceRaw) (crc : Byte), v.divisor.toNat = n ∧
      RequestReady s [0x02, 0x01, v.mode, v.divisor.extractLsb' 8 8, v.divisor.extractLsb' 0 8] crc) := by
  refine ⟨⟨ready bridge, 0xFFFFFFFF, _, ready_any _ _⟩, ⟨ready bridge, 0xFFFFFFFF, _, ready_any _ _⟩, ?_⟩
  intro n hn
  simp only [List.mem_cons, List.not_mem_nil, or_false] at hn
  rcases hn with rfl | rfl | rfl | rfl
  · exact ⟨ready bridge, ⟨7, 0⟩, _, rfl, ready_any _ _⟩
  · exact ⟨ready bridge, ⟨7, 257⟩, _, rfl, ready_any _ _⟩
  · exact ⟨ready bridge, ⟨7, 1⟩, _, rfl, ready_any _ _⟩
  · exact ⟨ready bridge, ⟨7, 256⟩, _, rfl, ready_any _ _⟩

/-! ### Configuration -/

/-- What BAD_VALUE of R3 says. -/
def windowBad (v : WindowRaw) : Prop :=
  v.base.toNat % 256 ≠ 0 ∨ v.size.toNat = 0 ∨ 65536 < v.size.toNat ∨ 2 ^ 32 < v.base.toNat + 256 * v.size.toNat ∨
    1 < v.kind.toNat ∨ 3 < v.group.toNat ∨ 1 < v.policy.toNat

/-- What passes the gating of R4. -/
def windowFree (s : State) (n : Fin 8) (v : WindowRaw) : Prop :=
  ((s.windows.get n).enabled = false ∨ (s.windows.get n).kind = .locked ∨
    (s.group (s.windows.get n).group).state = .disabled) ∧
  (v.enabled.toNat = 0 ∨ v.kind.toNat = 1 ∨ ∀ g : Fin 4, v.group.toNat = g.val → (s.group g).state = .disabled)

/-- What OVERLAP of R3 says. -/
def windowMeets (s : State) (n : Fin 8) (v : WindowRaw) : Prop :=
  v.enabled.toNat ≠ 0 ∧ ∃ k : Fin 8, k ≠ n ∧ (s.windows.get k).enabled = true ∧
    ∃ a : Nat, v.base.toNat ≤ a ∧ a < v.base.toNat + 256 * v.size.toNat ∧
      (s.windows.get k).base.toNat ≤ a ∧ a < (s.windows.get k).base.toNat + 256 * (s.windows.get k).size

/-- A range one unit past the top of memory; a window of a RUNNING group; a range whose last address is W1's first; the
range next to W1, and the last unit of memory. -/
theorem witness_PutWindowChecksAndReplaces :
    (∃ (s : State) (n : Fin 8) (v : WindowRaw) (crc : Byte),
      RequestReady s (0x02 :: BitVec.ofNat 8 (0x10 + n.val) :: v.toBytes) crc ∧ WindowsApart s ∧ windowBad v) ∧
    (∃ (s : State) (n : Fin 8) (v : WindowRaw) (crc : Byte),
      RequestReady s (0x02 :: BitVec.ofNat 8 (0x10 + n.val) :: v.toBytes) crc ∧ WindowsApart s ∧ ¬ windowBad v ∧
      ¬ windowFree s n v) ∧
    (∃ (s : State) (n : Fin 8) (v : WindowRaw) (crc : Byte),
      RequestReady s (0x02 :: BitVec.ofNat 8 (0x10 + n.val) :: v.toBytes) crc ∧ WindowsApart s ∧ ¬ windowBad v ∧
      windowFree s n v ∧ windowMeets s n v) ∧
    (∃ (s : State) (n : Fin 8) (v : WindowRaw) (crc : Byte) (g : Fin 4),
      RequestReady s (0x02 :: BitVec.ofNat 8 (0x10 + n.val) :: v.toBytes) crc ∧ WindowsApart s ∧ ¬ windowBad v ∧
      windowFree s n v ∧ ¬ windowMeets s n v ∧ v.group.toNat = g.val) := by
  refine ⟨⟨ready bridge, 7, ⟨1, 0xFFFFFF00, 2, 0, 3, 0, 0⟩, _, ready_any _ _, apart, by unfold windowBad; decide⟩,
    ⟨ready bridge, 3, ⟨0, 0x20004000, 1, 0, 2, 0, 0⟩, _, ready_any _ _, apart, by unfold windowBad; decide,
      by unfold windowFree; decide⟩,
    ⟨ready bridge, 7, ⟨1, 0x20001000, 1, 1, 0, 0, 0⟩, _, ready_any _ _, apart, by unfold windowBad; decide,
      by unfold windowFree; decide, by decide, 1, by decide, rfl, 0x20001000, by decide, by decide, by decide, by decide⟩,
    ⟨ready bridge, 7, ⟨1, 0xFFFFFF00, 1, 0, 3, 0, 0⟩, _, 3, ready_any _ _, apart, by unfold windowBad; decide,
      by unfold windowFree; decide, ?_, rfl⟩⟩
  rintro ⟨-, k, hk, he, a, h1, -, -, h4⟩
  have hlow : ∀ j : Fin 8, (bridge.windows.get j).base.toNat + 256 * (bridge.windows.get j).size ≤ 0x20004100 := by decide
  have := hlow k
  have h1' : 0xFFFFFF00 ≤ a := h1
  have h4' : a < (bridge.windows.get k).base.toNat + 256 * (bridge.windows.get k).size := h4
  omega

/-- A quota of 513; a RUNNING group; PEAK with an UP timer; the largest values. -/
theorem witness_PutGroupCfgChecksAndReplaces :
    (∃ (s : State) (g : Fin 4) (v : GroupCfgRaw) (crc : Byte),
      RequestReady s (0x02 :: BitVec.ofNat 8 (0x20 + g.val) :: v.toBytes) crc ∧ v.quota.toNat = 513) ∧
    (∃ (s : State) (g : Fin 4) (v : GroupCfgRaw) (crc : Byte),
      RequestReady s (0x02 :: BitVec.ofNat 8 (0x20 + g.val) :: v.toBytes) crc ∧ v = ⟨512, 4095, 15, 3, 1⟩ ∧
      (s.group g).state ≠ .disabled) ∧
    (∃ (s : State) (g : Fin 4) (v : GroupCfgRaw) (crc : Byte),
      RequestReady s (0x02 :: BitVec.ofNat 8 (0x20 + g.val) :: v.toBytes) crc ∧ v = ⟨512, 4095, 15, 3, 1⟩ ∧
      (s.group g).state = .disabled ∧ v.sources.getLsbD 1 = true ∧ (s.timer g).mode ≠ .upDown) ∧
    (∃ (s : State) (g : Fin 4) (v : GroupCfgRaw) (crc : Byte),
      RequestReady s (0x02 :: BitVec.ofNat 8 (0x20 + g.val) :: v.toBytes) crc ∧ v = ⟨512, 4095, 15, 3, 1⟩ ∧
      (s.group g).state = .disabled ∧ (s.timer g).source = .tick 0 ∧ (s.timer g).mode = .upDown) :=
  ⟨⟨ready bridge, 3, ⟨513, 0, 0, 1, 0⟩, _, ready_any _ _, rfl⟩,
   ⟨ready bridge, 0, ⟨512, 4095, 15, 3, 1⟩, _, ready_any _ _, rfl, by decide⟩,
   ⟨ready bridge, 3, ⟨512, 4095, 15, 3, 1⟩, _, ready_any _ _, rfl, rfl, rfl, by decide⟩,
   ⟨ready { bridge with timers := { bridge.timers with a3 := { Timer.reset with mode := .upDown } } }, 3,
    ⟨512, 4095, 15, 3, 1⟩, _, ready_any _ _, rfl, rfl, rfl, rfl⟩⟩

/-- A PUT of TIMER_CFG_1 is ready. -/
theorem put_timer_ready (s : State) (v : TimerCfgRaw) :
    RequestReady (ready s) (0x02 :: BitVec.ofNat 8 (0x30 + (1 : Fin 4).val) :: v.toBytes)
      (crc8 (0x02 :: BitVec.ofNat 8 (0x30 + (1 : Fin 4).val) :: v.toBytes)) := ready_any _ _

/-- A STOPPED timer in UP mode. -/
def atRest : Timer := ⟨.up, false, .tick 3, 9, 7, false, 6, .up, none, none, 5⟩

/-- A period of 0, k of 16 and source 0x14; a new mode for a running timer; a SYNC count source beside the SYNC seal
source; a running and a stopped timer reconfigured. -/
theorem witness_PutTimerCfgChecksAndConfigures :
    (∀ v ∈ [(⟨0, 0, 0, 0, 0, 0⟩ : TimerCfgRaw), ⟨0, 0, 0, 16, 1, 0⟩, ⟨0, 0, 0x14, 0, 1, 0⟩, ⟨3, 0, 0, 0, 1, 0⟩],
      ∃ (s : State) (crc : Byte),
        RequestReady s (0x02 :: BitVec.ofNat 8 (0x30 + (1 : Fin 4).val) :: v.toBytes) crc ∧
        (v.period.toNat = 0 ∨ 2 < v.mode.toNat ∨ (v.source = 0x00 ∧ 15 < v.k.toNat) ∨
          (v.source ≠ 0x00 ∧ v.source ≠ 0x11 ∧ v.source ≠ 0x12 ∧ v.source ≠ 0x13))) ∧
    (∃ (s : State) (v : TimerCfgRaw) (crc : Byte),
      RequestReady s (0x02 :: BitVec.ofNat 8 (0x30 + (1 : Fin 4).val) :: v.toBytes) crc ∧ v = ⟨2, 0, 0, 15, 1, 0⟩ ∧
      (s.timer 1).running = true ∧ TimerMode.upDown ≠ (s.timer 1).mode) ∧
    (∃ (s : State) (v : TimerCfgRaw) (crc : Byte),
      RequestReady s (0x02 :: BitVec.ofNat 8 (0x30 + (1 : Fin 4).val) :: v.toBytes) crc ∧ v = ⟨0, 0, 0x13, 99, 1, 0⟩ ∧
      (s.timer 1).running = false ∧ (s.group 1).cfg.sources.sync = true ∧ v.source ≠ 0x00) ∧
    (∃ (s : State) (v : TimerCfgRaw) (crc : Byte),
      RequestReady s (0x02 :: BitVec.ofNat 8 (0x30 + (1 : Fin 4).val) :: v.toBytes) crc ∧ v = ⟨0, 0, 0, 3, 4, 2⟩ ∧
      (s.timer 1).running = true ∧ (s.timer 1).mode = .up ∧ (s.timer 1).source = .tick 3 ∧
      (s.group 1).cfg.sources = noSource) ∧
    (∃ (s : State) (v : TimerCfgRaw) (crc : Byte),
      RequestReady s (0x02 :: BitVec.ofNat 8 (0x30 + (1 : Fin 4).val) :: v.toBytes) crc ∧ v = ⟨0, 0, 0, 15, 9, 2⟩ ∧
      (s.timer 1).running = false ∧ (s.timer 1).mode = .up ∧ (s.timer 1).period = v.period ∧
      (s.timer 1).source ≠ .tick 15 ∧ (s.group 1).cfg.sources = noSource) := by
  refine ⟨?_, ⟨ready (timed { atRest with running := true } noSource), _, _, put_timer_ready _ _, rfl, rfl, by decide⟩,
    ⟨ready (timed atRest ⟨false, false, false, true⟩), _, _, put_timer_ready _ _, rfl, rfl, rfl, by decide⟩,
    ⟨ready (timed { atRest with running := true } noSource), _, _, put_timer_ready _ _, rfl, rfl, rfl, rfl, rfl⟩,
    ⟨ready (timed atRest noSource), _, _, put_timer_ready _ _, rfl, rfl, rfl, rfl, by decide, rfl⟩⟩
  intro v hv
  simp only [List.mem_cons, List.not_mem_nil, or_false] at hv
  rcases hv with rfl | rfl | rfl | rfl <;> exact ⟨ready bridge, _, put_timer_ready _ _, by decide⟩

/-- *high* below *low*; one word. -/
theorem witness_PutMonCfgChecksAndClears :
    (∃ (s : State) (m : Fin 4) (v : MonCfgRaw) (crc : Byte),
      RequestReady s (0x02 :: BitVec.ofNat 8 (0x40 + m.val) :: v.toBytes) crc ∧ v.high.toNat < v.low.toNat) ∧
    (∃ (s : State) (m : Fin 4) (v : MonCfgRaw) (crc : Byte) (g : Fin 4),
      RequestReady s (0x02 :: BitVec.ofNat 8 (0x40 + m.val) :: v.toBytes) crc ∧
      ¬ (v.low.toNat % 4 ≠ 0 ∨ v.high.toNat % 4 ≠ 0 ∨ v.high.toNat < v.low.toNat ∨ 7 < v.streams.toNat ∨
        3 < v.kinds.toNat ∨ 3 < v.stamp.toNat) ∧ v.stamp.toNat = g.val) :=
  ⟨⟨ready bridge, 1, ⟨1, 0x10, 0x0C, 7, 3, 3⟩, _, ready_any _ _, by decide⟩,
   ⟨ready bridge, 1, ⟨1, 0x10, 0x10, 7, 3, 3⟩, _, 3, ready_any _ _, by decide, rfl⟩⟩

/-- A width of 0; the largest codes; SET_CMT of group 3, active. -/
theorem witness_CommitLineRequestsSetTheLine :
    (∃ (s : State) (g : Fin 4) (v : CmtCfgRaw) (crc : Byte),
      RequestReady s (0x02 :: BitVec.ofNat 8 (0x50 + g.val) :: v.toBytes) crc ∧ v.width.toNat = 0) ∧
    (∃ (s : State) (g : Fin 4) (v : CmtCfgRaw) (crc : Byte),
      RequestReady s (0x02 :: BitVec.ofNat 8 (0x50 + g.val) :: v.toBytes) crc ∧
      ¬ (v.width.toNat = 0 ∨ 3 < v.mode.toNat ∨ 1 < v.polarity.toNat) ∧ v = ⟨3, 1, 255, 9, 9⟩) ∧
    (∃ x : Line, x.polarity = .activeHigh) ∧ (∃ x : Line, x.polarity = .activeLow) ∧
    (∃ (s : State) (arg crc : Byte) (g : Fin 4), RequestReady s [0x03, 0x30, arg] crc ∧ arg.toNat % 16 = g.val ∧
      arg.toNat / 16 = 1) :=
  ⟨⟨ready bridge, 1, ⟨1, 0, 0, 0, 0⟩, _, ready_any _ _, rfl⟩,
   ⟨ready bridge, 1, ⟨3, 1, 255, 9, 9⟩, _, ready_any _ _, by decide, rfl⟩, ⟨Line.reset, rfl⟩,
   ⟨{ Line.reset with polarity := .activeLow }, rfl⟩, ⟨ready bridge, 0x13, _, 3, ready_any _ _, rfl, rfl⟩⟩

/-! ### Actions -/

/-- The bridge with an OPEN entry of G1 and one of G2, and a write held for the admission of G2. -/
def twoOpen : State :=
  { holding 1 .admission with
    queue := [f1, ent 2 .opened 0x20004010 Word.zero LaneMask.full .notIssued]
    groups := { bridge.groups with a1 := grp .running 1 0 false 1 0 128, a2 := grp .faulted 1 0 false 1 0 1 } }

/-- The hypotheses under which the whole next state of BYPASS is stated. -/
def WindsDown (s : State) (crc : Byte) : Prop :=
  RequestReady s [0x03, 0x02, 0x00] crc ∧ s.mode = .active ∧ StagingSound s ∧ NoStartLeft s ∧
    ∃ g : Fin 4, (s.group g).state ≠ .disabled

/-- Each mode for ACTIVATE; for BYPASS another mode, every group DISABLED, one STOPPING, and G0 to G2 RUNNING;
two groups that seal beside one that ends, a drain in progress, and groups that all end, each with or without a held write. -/
theorem witness_ModeActionsMoveTheDevice :
    (∃ (s : State) (crc : Byte), RequestReady s [0x03, 0x01, 0x00] crc ∧ s.mode = .leaving) ∧
    (∃ (s : State) (crc : Byte), RequestReady s [0x03, 0x01, 0x00] crc ∧ s.mode = .bypass) ∧
    (∃ (s : State) (crc : Byte), RequestReady s [0x03, 0x02, 0x00] crc ∧ s.mode ≠ .active) ∧
    (∃ (s : State) (crc : Byte), RequestReady s [0x03, 0x02, 0x00] crc ∧ s.mode = .active ∧
      ∀ g : Fin 4, (s.group g).state = .disabled) ∧
    (∃ (s : State) (crc : Byte), RequestReady s [0x03, 0x02, 0x00] crc ∧ s.mode = .active ∧
      (∀ g : Fin 4, (s.group g).state = .disabled ∨ (s.group g).state = .stopping) ∧
      ∃ g : Fin 4, (s.group g).state = .stopping) ∧
    (∃ (s : State) (crc : Byte), RequestReady s [0x03, 0x02, 0x00] crc ∧ s.mode = .active ∧ StagingSound s ∧
      s.chold = true ∧ ∃ g : Fin 4, (s.group g).state ≠ .disabled) ∧
    (∃ s crc, WindsDown s crc ∧ s.chold = false ∧ s.engine.state = .idle ∧
      four.filter (fun g => entersStopping s g && !(s.group g).hasSealed) = [1, 2] ∧ endsAtOnce s 0 = true ∧
      ∃ h : HeldWrite, s.held = some h ∧ entersStopping s h.cls.group = true) ∧
    (∃ s crc, WindsDown s crc ∧ s.engine.state ≠ .idle ∧ s.held = none ∧ entersStopping s 1 = true ∧
      (s.group 1).hasSealed = true) ∧
    (∃ s crc, WindsDown s crc ∧ (∀ g : Fin 4, (s.group g).state = .disabled ∨ endsAtOnce s g = true) ∧
      ∃ h : HeldWrite, s.held = some h ∧ endsAtOnce s h.cls.group = true) :=
  ⟨⟨ready { State.reset with mode := .leaving }, _, ready_any _ _, rfl⟩, ⟨ready State.reset, _, ready_any _ _, rfl⟩,
   ⟨ready State.reset, _, ready_any _ _, by decide⟩,
   ⟨ready { State.reset with mode := .active }, _, ready_any _ _, rfl, by decide⟩,
   ⟨ready { State.reset with mode := .active, groups := { State.reset.groups with a1 := grp .stopping 2 0 true 0 1 128 } },
    _, ready_any _ _, rfl, by decide, 1, rfl⟩,
   ⟨ready { midDrain with chold := true }, _, ready_any _ _, rfl, midDrain_staging, rfl, 0, by decide⟩,
   ⟨ready twoOpen, _, ⟨ready_any _ _, rfl, by decide +kernel, by decide, 0, by decide⟩, rfl, rfl, by decide +kernel,
    by decide +kernel, _, rfl, by decide +kernel⟩,
   ⟨ready midDrain, _, ⟨ready_any _ _, rfl, midDrain_staging, by decide, 0, by decide⟩, by decide, rfl, by decide +kernel,
    rfl⟩,
   ⟨ready (holding 1 .admission), _, ⟨ready_any _ _, rfl, by decide +kernel, by decide, 0, by decide⟩, by decide +kernel, _,
    rfl, by decide +kernel⟩⟩

/-- The request of ENABLE_GROUP for G3, which is DISABLED, beside this Host Port and this Consumer Port; W3 is G3's. -/
def enabling (hp cp : Port) : State :=
  ready { bridge with windows := { table with a3 := ⟨true, 0x20004000, 1, .staged, 3, true, .stall⟩ }, hp := hp, cp := cp }

/-- The hypotheses that the re-examinations of ENABLE_GROUP share. -/
def Enables (s s1 : State) (g : Fin 4) (crc : Byte) : Prop :=
  RequestReady s [0x03, 0x10, BitVec.ofNat 8 g.val] crc ∧ s.mode = .active ∧ (s.group g).state = .disabled ∧
  WindowsApart s ∧ (∀ sl ∈ s.hp.head?.toList, FormSound sl.req) ∧ (∀ sl ∈ s.cp.head?.toList, FormSound sl.req) ∧
  s1 = { s with groups := s.groups.set g { s.group g with
    state := if (s.group g).fault.valid then .faulted else .running } }

/-- A pass-through head. -/
def passing (r : Request) : Port := one r (.head .bypassed .passThrough)

theorem enabling_apart (hp cp : Port) : WindowsApart (enabling hp cp) :=
  ⟨(by decide +kernel : ∀ n : Fin 8, WindowInRange ((enabling Port.reset Port.reset).windows.get n)),
   (by decide +kernel : ∀ i j : Fin 8, i ≠ j → ((enabling Port.reset Port.reset).windows.get i).enabled = true →
     ((enabling Port.reset Port.reset).windows.get j).enabled = true →
     rangesMeet ((enabling Port.reset Port.reset).windows.get i).base
       ((enabling Port.reset Port.reset).windows.get i).size ((enabling Port.reset Port.reset).windows.get j).base
       ((enabling Port.reset Port.reset).windows.get j).size = false)⟩

/-- The bridge with G2 DISABLED, of this quota, and a host write of two words to its REFUSE window. -/
def refusing (quota : Nat) : State :=
  ready { bridge with
    groups := { bridge.groups with a2 := { GroupRec.reset with cfg := { GroupCfg.reset with quota := quota } } }
    hp := passing (wr 0x20004000 [full 1, full 2]) }

/-- Each refusal; a group with no request to re-examine; heads at both ports at once: a consumer write barred beside a host
write admitted, a straddling write beside a host read forwarded, a write outside beside a host read inside no window of the
group, a write in a LOCKED window beside a straddling host read; a host write refused; a host write held, beside a barred
consumer write; a host read of a window that does not forward; one whose word is fully covered. -/
theorem witness_EnableGroupStartsAndReexamines :
    (∃ (s : State) (g : Fin 4) (crc : Byte), RequestReady s [0x03, 0x10, BitVec.ofNat 8 g.val] crc ∧ s.mode ≠ .active) ∧
    (∃ (s : State) (g : Fin 4) (crc : Byte), RequestReady s [0x03, 0x10, BitVec.ofNat 8 g.val] crc ∧ s.mode = .active ∧
      (s.group g).state ≠ .disabled) ∧
    (∃ (s : State) (g : Fin 4) (crc : Byte), RequestReady s [0x03, 0x10, BitVec.ofNat 8 g.val] crc ∧ s.mode = .active ∧
      (s.group g).state = .disabled ∧ (∀ sl ∈ s.hp.head?.toList, sl.phase.passesThrough = false) ∧
      ∀ sl ∈ s.cp.head?.toList, sl.phase.passesThrough = true → sl.req.kind = .read) ∧
    (∃ s s1 g crc t u, Enables s s1 g crc ∧ HostReexamined g s1 t ∧ ConsumerReexamined g t u ∧
      u.hp.slots.map Slot.phase = [.answered ⟨.ok, []⟩] ∧ u.cp.slots.map Slot.phase = [.answered ⟨.locked, []⟩]) ∧
    (∃ s s1 g crc t u, Enables s s1 g crc ∧ HostReexamined g s1 t ∧ ConsumerReexamined g t u ∧
      u.hp.slots.map Slot.phase = [.head (.staged 3 3 true .stall) .forwarded] ∧
      u.cp.slots.map Slot.phase = [.answered ⟨.span, []⟩]) ∧
    (∃ s s1 g crc t u, Enables s s1 g crc ∧ HostReexamined g s1 t ∧ ConsumerReexamined g t u ∧ u = s1 ∧
      outsideAll s ⟨.write, 0x30000000, 1, [full 1]⟩ = true ∧ insideOne s 2 (rd 0x20002000 1) = true) ∧
    (∃ s s1 g crc t u, Enables s s1 g crc ∧ HostReexamined g s1 t ∧ ConsumerReexamined g t u ∧
      u.hp.slots.map Slot.phase = [.answered ⟨.span, []⟩] ∧ u.cp = s.cp ∧ (s.windows.get 1).kind = .locked) ∧
    (∃ s s1 g crc t u, Enables s s1 g crc ∧ HostReexamined g s1 t ∧ ConsumerReexamined g t u ∧
      u.hp.slots.map Slot.phase = [.answered ⟨.full g, []⟩]) ∧
    (∃ s s1 g crc t u, Enables s s1 g crc ∧ HostReexamined g s1 t ∧ ConsumerReexamined g t u ∧
      u.hp.slots.map Slot.phase = [.head (.staged 3 3 true .stall) (.held .admission (some 1000))] ∧
      u.cp.slots.map Slot.phase = [.answered ⟨.locked, []⟩]) ∧
    (∃ s s1 g crc t u, Enables s s1 g crc ∧ HostReexamined g s1 t ∧ ConsumerReexamined g t u ∧ u = s1 ∧
      (s.windows.get 0).forward = false ∧ (s.windows.get 0).group = g) ∧
    (∃ s s1 g crc t u, Enables s s1 g crc ∧ HostReexamined g s1 t ∧ ConsumerReexamined g t u ∧
      u.hp.slots.map Slot.phase = [.answered ⟨.ok, [⟨7, 7, 7, 7⟩]⟩]) := by
  refine ⟨⟨ready State.reset, 3, _, ready_any _ _, by decide⟩, ⟨ready bridge, 0, _, ready_any _ _, rfl, by decide⟩,
   ⟨enabling (one (rd 0x20004000 1) .waiting) (passing (rd 0x20004000 1)), 3, _, ready_any _ _, rfl, rfl, by decide,
    by decide⟩, ?_, ?_, ?_, ?_, ?_, ?_, ?_, ?_⟩
  · exact ⟨enabling (passing (wr 0x20004000 [full 1])) (passing (wr 0x200040FC [full 1])), _, 3, _, _, _,
      ⟨⟨rfl, rfl, rfl⟩, rfl, rfl, enabling_apart _ _, by decide, by decide, rfl⟩,
      .writeFits (n := 3) ⟨0, .bypassed, rfl⟩ (by decide +kernel) rfl rfl rfl (by decide +kernel),
      .barred (n := 3) ⟨0, .bypassed, rfl⟩ rfl (by decide +kernel) rfl rfl, by decide +kernel, by decide +kernel⟩
  · exact ⟨enabling (passing (rd 0x20004000 1)) (passing (wr 0x200040FC [full 1, full 2])), _, 3, _, _, _,
      ⟨⟨rfl, rfl, rfl⟩, rfl, rfl, enabling_apart _ _, by decide, by decide, rfl⟩,
      .readForwarded (n := 3) ⟨0, .bypassed, rfl⟩ (by decide +kernel) rfl rfl rfl rfl
        ⟨0x20004000, List.mem_singleton.mpr rfl, rfl⟩,
      .straddles ⟨0, .bypassed, rfl⟩ rfl (by decide +kernel) (by decide +kernel), by decide +kernel, by decide +kernel⟩
  · exact ⟨enabling (passing (rd 0x20002000 1)) (passing (wr 0x30000000 [full 1])), _, 3, _, _, _,
      ⟨⟨rfl, rfl, rfl⟩, rfl, rfl, enabling_apart _ _, by decide, by decide, rfl⟩,
      .elsewhere (n := 2) ⟨0, .bypassed, rfl⟩ (by decide +kernel) (.inr (by decide)),
      .outside ⟨0, .bypassed, rfl⟩ (by decide +kernel), rfl, by decide +kernel, by decide +kernel⟩
  · exact ⟨enabling (passing (rd 0x200040FC 2)) (passing (wr 0x20001000 [full 1])), _, 3, _, _, _,
      ⟨⟨rfl, rfl, rfl⟩, rfl, rfl, enabling_apart _ _, by decide, by decide, rfl⟩,
      .straddles ⟨0, .bypassed, rfl⟩ (by decide +kernel) (by decide +kernel),
      .elsewhere (n := 1) ⟨0, .bypassed, rfl⟩ (by decide +kernel) (.inl rfl), by decide +kernel, rfl, rfl⟩
  · exact ⟨refusing 1, _, 2, _, _, _, ⟨⟨rfl, rfl, rfl⟩, rfl, rfl, apart, by decide, by decide, rfl⟩,
      .writeRefused (n := 3) ⟨0, .bypassed, rfl⟩ (by decide +kernel) rfl rfl rfl (by decide +kernel) rfl,
      .nothing (by decide), by decide +kernel⟩
  · exact ⟨{ enabling (passing (wr 0x20004000 [full 1, full 2])) (passing (wr 0x20004000 [full 1])) with
        groups := { bridge.groups with a3 := { GroupRec.reset with cfg := { GroupCfg.reset with quota := 1 } } } }, _, 3, _,
      _, _, ⟨⟨rfl, rfl, rfl⟩, rfl, rfl, enabling_apart Port.reset Port.reset, by decide, by decide, rfl⟩,
      .writeHeld (n := 3) ⟨0, .bypassed, rfl⟩ (by decide +kernel) rfl rfl rfl (by decide +kernel) rfl,
      .barred (n := 3) ⟨0, .bypassed, rfl⟩ rfl (by decide +kernel) rfl rfl, by decide +kernel, by decide +kernel⟩
  · exact ⟨{ enabling (passing (rd 0x20000000 1)) Port.reset with groups := Four.all GroupRec.reset }, _, 0, _, _, _,
      ⟨⟨rfl, rfl, rfl⟩, rfl, rfl, enabling_apart Port.reset Port.reset, by decide, by decide, rfl⟩,
      .readPasses (n := 0) ⟨0, .bypassed, rfl⟩ (by decide +kernel) rfl rfl rfl rfl, .nothing (by decide), rfl, rfl, rfl⟩
  · exact ⟨{ enabling (passing (rd 0x20004000 1)) Port.reset with
        queue := [ent 3 .opened 0x20004000 ⟨7, 7, 7, 7⟩ LaneMask.full .notIssued] }, _, 3, _, _, _,
      ⟨⟨rfl, rfl, rfl⟩, rfl, rfl, enabling_apart Port.reset Port.reset, by decide, by decide, rfl⟩,
      .readCovered (n := 3) ⟨0, .bypassed, rfl⟩ (by decide +kernel) rfl rfl rfl rfl
        (fun a ha => by rw [List.mem_singleton.mp ha]; rfl),
      .nothing (by decide), by decide +kernel⟩

/-- A DISABLED and a STOPPING group; an empty group, without a held write, with its own and with another group's; the same
under a sealed epoch; one open entry without a sealed epoch, under CHOLD, and with the engine free and its own write
held. -/
theorem witness_DisableGroupStopsTheGroup :
    (∃ (s : State) (g : Fin 4) (crc : Byte), RequestReady s [0x03, 0x11, BitVec.ofNat 8 g.val] crc ∧
      (s.group g).state = .disabled) ∧
    (∃ (s : State) (g : Fin 4) (crc : Byte), RequestReady s [0x03, 0x11, BitVec.ofNat 8 g.val] crc ∧
      (s.group g).state = .stopping) ∧
    (∃ (s : State) (g : Fin 4) (crc : Byte), RequestReady s [0x03, 0x11, BitVec.ofNat 8 g.val] crc ∧
      (s.group g).state = .running ∧ (s.group g).openCount = 0 ∧ (s.group g).sealedCount = 0 ∧
      (s.group g).hasSealed = false ∧ s.mode ≠ .leaving ∧ s.held = none) ∧
    (∃ (s : State) (g : Fin 4) (crc : Byte) (h : HeldWrite), RequestReady s [0x03, 0x11, BitVec.ofNat 8 g.val] crc ∧
      (s.group g).state = .running ∧ (s.group g).openCount = 0 ∧ (s.group g).sealedCount = 0 ∧
      (s.group g).hasSealed = false ∧ s.mode ≠ .leaving ∧ s.held = some h ∧ h.cls.group = g) ∧
    (∃ (s : State) (g : Fin 4) (crc : Byte) (h : HeldWrite), RequestReady s [0x03, 0x11, BitVec.ofNat 8 g.val] crc ∧
      (s.group g).state = .running ∧ (s.group g).openCount = 0 ∧ (s.group g).sealedCount = 0 ∧
      (s.group g).hasSealed = false ∧ s.mode ≠ .leaving ∧ s.held = some h ∧ h.cls.group ≠ g) ∧
    (∃ (s : State) (g : Fin 4) (crc : Byte) (h : HeldWrite), RequestReady s [0x03, 0x11, BitVec.ofNat 8 g.val] crc ∧
      (s.group g).state = .running ∧ (s.group g).hasSealed = true ∧ s.held = some h ∧ h.cls.group = g) ∧
    (∃ (s : State) (g : Fin 4) (crc : Byte) (h : HeldWrite), RequestReady s [0x03, 0x11, BitVec.ofNat 8 g.val] crc ∧
      (s.group g).state = .running ∧ (s.group g).hasSealed = true ∧ s.held = some h ∧ h.cls.group ≠ g) ∧
    (∃ (s : State) (g : Fin 4) (crc : Byte), RequestReady s [0x03, 0x11, BitVec.ofNat 8 g.val] crc ∧
      (s.group g).state = .running ∧ (s.group g).hasSealed = false ∧ (s.group g).openCount = 1 ∧ s.chold = true) ∧
    (∃ (s stopped u : State) (g : Fin 4) (crc : Byte) (h : HeldWrite),
      RequestReady s [0x03, 0x11, BitVec.ofNat 8 g.val] crc ∧
      stopped = holdConverted g { s with groups := s.groups.set g { s.group g with state := .stopping } } ∧
      (s.group g).state = .running ∧ (s.group g).hasSealed = false ∧ (s.group g).openCount = 1 ∧ s.held = some h ∧
      h.cls.group = g ∧ s.chold = false ∧ s.engine.state = .idle ∧ s.commitReq = [] ∧
      s.queue.any (fun e => e.group == g && e.role == .opened) = true ∧ StartTest (sealedAt g stopped) u) :=
  ⟨⟨ready bridge, 3, _, ready_any _ _, rfl⟩, ⟨ready (answering .issued .stopping 0 []), 2, _, ready_any _ _, rfl⟩,
   ⟨ready bridge, 2, _, ready_any _ _, rfl, rfl, rfl, rfl, by decide, rfl⟩,
   ⟨ready (holding 1 .admission), 2, _, _, ready_any _ _, rfl, rfl, rfl, rfl, by decide, rfl, rfl⟩,
   ⟨ready (holding 1 .admission), 1, _, _, ready_any _ _, rfl, rfl, rfl, rfl, by decide, rfl, by decide⟩,
   ⟨ready { answering .issued .running 0 [] with hp := (holding 1 .admission).hp }, 2, _, _, ready_any _ _, rfl, rfl, rfl,
    rfl⟩,
   ⟨ready { midDrain with hp := (holding 1 .admission).hp }, 1, _, _, ready_any _ _, rfl, rfl, rfl, by decide⟩,
   ⟨ready { bridge with groups := { bridge.groups with a2 := grp .running 1 0 false 1 0 128 }, queue := [f2], chold := true },
    2, _, ready_any _ _, rfl, rfl, rfl, rfl⟩,
   ⟨ready { holding 1 .admission with
      groups := { bridge.groups with a2 := grp .running 1 0 false 1 0 1 }, queue := [f2] }, _, _, 2, _, _, ready_any _ _, rfl,
    rfl, rfl, rfl, rfl, rfl, rfl, rfl, rfl, rfl, startTest_iff.mpr rfl⟩⟩

/-- Both refusals; an empty open epoch behind a drain; one entry, and an empty open epoch, with the engine free. -/
theorem witness_SealActionSealsTheOpenEpoch :
    (∃ (s : State) (g : Fin 4) (crc : Byte), RequestReady s [0x03, 0x12, BitVec.ofNat 8 g.val] crc ∧
      (s.group g).state = .disabled) ∧
    (∃ (s : State) (g : Fin 4) (crc : Byte), RequestReady s [0x03, 0x12, BitVec.ofNat 8 g.val] crc ∧
      (s.group g).state = .running ∧ (s.group g).hasSealed = true) ∧
    (∃ (s : State) (g : Fin 4) (crc : Byte), RequestReady s [0x03, 0x12, BitVec.ofNat 8 g.val] crc ∧
      (s.group g).state = .running ∧ (s.group g).hasSealed = false ∧ s.engine.state ≠ .idle ∧
      (s.group g).openCount = 0) ∧
    (∃ (s : State) (g : Fin 4) (crc : Byte), RequestReady s [0x03, 0x12, BitVec.ofNat 8 g.val] crc ∧
      (s.group g).state = .running ∧ (s.group g).hasSealed = false ∧ s.chold = false ∧ s.engine.state = .idle ∧
      s.commitReq = [] ∧ s.queue.any (fun e => e.group == g && e.role == .opened) = true) ∧
    (∃ (s sealedState u : State) (g : Fin 4) (crc : Byte), RequestReady s [0x03, 0x12, BitVec.ofNat 8 g.val] crc ∧
      (s.group g).state = .running ∧ (s.group g).hasSealed = false ∧ s.chold = false ∧ s.engine.state = .idle ∧
      s.commitReq = [] ∧ s.queue.any (fun e => e.group == g) = false ∧ writeOutstanding s.issue g = false ∧
      sealedState = sealedAt g s ∧ StartTest sealedState u) :=
  ⟨⟨ready bridge, 3, _, ready_any _ _, rfl⟩, ⟨ready midDrain, 1, _, ready_any _ _, rfl, rfl⟩,
   ⟨ready midDrain, 0, _, ready_any _ _, rfl, rfl, by decide, rfl⟩,
   ⟨ready { bridge with queue := [f2] }, 2, _, ready_any _ _, rfl, rfl, rfl, rfl, rfl, rfl⟩,
   ⟨ready bridge, _, _, 2, _, ready_any _ _, rfl, rfl, rfl, rfl, rfl, rfl, rfl, rfl, startTest_iff.mpr rfl⟩⟩

/-- DISCARD of a STOPPING, a DISABLED and a RUNNING group with a write held; CLEAR_FAULT. -/
theorem witness_DiscardAndClearFault :
    (∃ (s : State) (g : Fin 4) (crc : Byte), RequestReady s [0x03, 0x13, BitVec.ofNat 8 g.val] crc ∧
      (s.group g).state = .stopping) ∧
    (∃ (s : State) (g : Fin 4) (crc : Byte), RequestReady s [0x03, 0x13, BitVec.ofNat 8 g.val] crc ∧
      (s.group g).state = .disabled) ∧
    (∃ (s : State) (g : Fin 4) (crc : Byte), RequestReady s [0x03, 0x13, BitVec.ofNat 8 g.val] crc ∧
      (s.group g).state = .running ∧ s.held ≠ none) ∧
    (∃ (s : State) (g : Fin 4) (crc : Byte), RequestReady s [0x03, 0x14, BitVec.ofNat 8 g.val] crc ∧
      (s.group g).state = .faulted) :=
  ⟨⟨ready (answering .issued .stopping 0 []), 2, _, ready_any _ _, rfl⟩, ⟨ready bridge, 3, _, ready_any _ _, rfl⟩,
   ⟨ready (holding 1 .admission), 2, _, ready_any _ _, rfl, by decide⟩,
   ⟨ready (answering .issued .faulted 0 []), 2, _, ready_any _ _, rfl⟩⟩

/-- A running and a stopped timer for START and STOP; a running one for PRESET. -/
theorem witness_TimerActionsStartStopPreset :
    (∃ (s : State) (t : Fin 4) (crc : Byte), RequestReady s [0x03, 0x20, BitVec.ofNat 8 t.val] crc ∧
      (s.timer t).running = true) ∧
    (∃ (s : State) (t : Fin 4) (crc : Byte), RequestReady s [0x03, 0x20, BitVec.ofNat 8 t.val] crc ∧
      (s.timer t).running = false) ∧
    (∃ (s : State) (t : Fin 4) (crc : Byte), RequestReady s [0x03, 0x21, BitVec.ofNat 8 t.val] crc ∧
      (s.timer t).running = false) ∧
    (∃ (s : State) (t : Fin 4) (crc : Byte), RequestReady s [0x03, 0x21, BitVec.ofNat 8 t.val] crc ∧
      (s.timer t).running = true) ∧
    (∃ (s : State) (t : Fin 4) (crc : Byte), RequestReady s [0x03, 0x22, BitVec.ofNat 8 t.val] crc ∧
      (s.timer t).running = true) :=
  ⟨⟨ready { bridge with timers := ticking }, 1, _, ready_any _ _, rfl⟩, ⟨ready bridge, 1, _, ready_any _ _, rfl⟩,
   ⟨ready bridge, 1, _, ready_any _ _, rfl⟩, ⟨ready { bridge with timers := ticking }, 1, _, ready_any _ _, rfl⟩,
   ⟨ready { bridge with timers := ticking }, 1, _, ready_any _ _, rfl⟩⟩

/-! ### Laws that every step keeps: each holds in the middle of a drain, where a commit write is answered -/

/-- The drain of Section 11.9, with the answer to its commit write next. -/
def answered : State := { midDrain with pending := [.memoryAnswer .ok []] }

theorem witness_StepsKeepTheLimits :
    ∃ s s' : State, (WithinLimits s ∧ WriteCountAgrees s) ∧ s.engine.writeCount = 1 ∧ step s = .next s' :=
  ⟨answered, _, by decide +kernel, rfl, rfl⟩

theorem witness_StepsKeepTheEpochs :
    ∃ s s' : State, EpochsAgree s ∧ (s.group 1).hasSealed = true ∧ step s = .next s' :=
  ⟨answered, _, by decide +kernel, rfl, rfl⟩

theorem witness_StepsKeepTheClockedBlocks :
    ∃ s s' : State, (TimersSound s ∧ PairingSound s ∧ LinesSound s ∧ TickSound s) ∧ (s.timer 1).running = true ∧
      step s = .next s' :=
  ⟨{ bridge with timers := ticking, pending := [.timerStep 1] }, _,
   ⟨by decide +kernel, by decide +kernel, by decide +kernel, by decide +kernel⟩, rfl, rfl⟩

theorem witness_StepsKeepTheQuotas :
    ∃ s s' : State, (StagingSound s ∧ WithinQuota s ∧ EntriesSound s) ∧ s.queue ≠ [] ∧ step s = .next s' :=
  ⟨answered, _, ⟨midDrain_staging, by decide +kernel, by decide +kernel⟩, by decide, rfl⟩

theorem witness_StepsKeepTheTable :
    ∃ s s' : State, TableSound s ∧ s.queue ≠ [] ∧ step s = .next s' :=
  ⟨answered, _, midDrain_table, by decide, rfl⟩

theorem witness_StepsKeepThePorts :
    ∃ s s' : State, PortsSound s ∧ s.hp.slots ≠ [] ∧ step s = .next s' :=
  ⟨{ midDrain with pending := [.memoryGrant] }, _, ⟨by decide +kernel, by decide +kernel, by decide +kernel⟩, by decide,
   rfl⟩

/-- The engine, the queue and the issue list agree in the drain of Section 11.9. -/
theorem midDrain_engine : EngineSound midDrain := by
  refine ⟨by decide +kernel, by decide +kernel, by decide +kernel, by decide +kernel, by decide +kernel, ?_,
    by decide +kernel⟩
  intro x hx
  refine ⟨e1, by decide, ?_, rfl, rfl⟩
  exact List.mem_singleton.mp hx

theorem witness_StepsKeepTheEngine :
    ∃ s s' : State, (StagingSound s ∧ EngineSound s) ∧ s.engine.state = .draining 1 ∧ step s = .next s' :=
  ⟨answered, _, ⟨midDrain_staging, midDrain_engine⟩, rfl, rfl⟩

theorem witness_StepsKeepTheFence :
    ∃ s s' : State, FenceSound s ∧ s.issue ≠ [] ∧ step s = .next s' :=
  ⟨{ midDrain with pending := [.memoryGrant] }, _, ⟨midDrain_staging, apart, midDrain_engine, by decide +kernel⟩,
   by decide, rfl⟩

/-- In the middle of a drain, and while RSTn is asserted with MCSn low. -/
theorem witness_StepsLeaveNoStartAndStayInReset :
    (∃ s s' : State, (NoStartLeft s ∧ HeldInReset s) ∧ s.inReset = false ∧ step s = .next s') ∧
    (∃ s s' : State, (NoStartLeft s ∧ HeldInReset s) ∧ s.inReset = true ∧ s.mgmt.phase = .ignored ∧ step s = .next s') :=
  ⟨⟨answered, _, by decide +kernel, rfl, rfl⟩,
   ⟨{ State.reset with inReset := true, mgmt := ⟨.ignored, [], none, [], none⟩, pending := [.rstnRelease] }, _,
    by decide +kernel, rfl, rfl, rfl⟩⟩

end Sys2Proof.Tests
end

namespace Sys2Proof.Machine

/-! ## The order of the heads (R124, R125)

What a port may do to its slots without a new processed head: accept, deliver, issue and answer. -/

theorem Slot.active_of_waiting {sl : Slot} (h : sl.phase = .waiting) : sl.active = true := by
  simp [Slot.active, h]

theorem headsInOrder_of_waiting {l : List Slot} (h : ∀ x ∈ l, x.phase = .waiting) : headsInOrder l = true := by
  cases l with
  | nil => rfl
  | cons x l =>
    have hx : x.active = true := Slot.active_of_waiting (h x (by simp))
    simpa [headsInOrder, hx] using fun y hy => h y (by simp [hy])

/-- Slots that are issued or answered do not matter to the order of the heads. -/
theorem headsInOrder_skip {l1 : List Slot} (l2 : List Slot) (h : ∀ x ∈ l1, x.active = false) :
    headsInOrder (l1 ++ l2) = headsInOrder l2 := by
  induction l1 with
  | nil => rfl
  | cons x l ih =>
    simp only [List.cons_append, headsInOrder, h x (by simp), Bool.false_eq_true, if_false]
    exact ih fun y hy => h y (by simp [hy])

theorem headsInOrder_cons {sl : Slot} {l : List Slot} (h : sl.active = true) :
    headsInOrder (sl :: l) = true ↔ ∀ x ∈ l, x.phase = .waiting := by
  simp [headsInOrder, h]

theorem headsInOrder_append_waiting {l : List Slot} {w : Slot} (hw : w.phase = .waiting)
    (h : headsInOrder l = true) : headsInOrder (l ++ [w]) = true := by
  induction l with
  | nil => exact headsInOrder_of_waiting (by simpa using hw)
  | cons x l ih =>
    cases hx : x.active with
    | true =>
      have hl := (headsInOrder_cons hx).mp h
      exact (headsInOrder_cons hx).mpr fun y hy => by
        rcases List.mem_append.mp hy with hy | hy
        · exact hl y hy
        · rw [List.mem_singleton.mp hy, hw]
    | false => simp_all [headsInOrder]

/-- A port moves on to `q`: its heads stay in order, and its head is the same or has not been processed. -/
def PortFollows (p q : Port) : Prop :=
  headsInOrder p.slots = true →
    headsInOrder q.slots = true ∧ (q.head? = p.head? ∨ ∀ sl, q.head? = some sl → sl.phase = .waiting)

theorem PortFollows.of_slots {p q : Port} (h : q.slots = p.slots) : PortFollows p q := fun ho =>
  ⟨h ▸ ho, .inl (by simp [Port.head?, h])⟩

theorem PortFollows.trans {p q r : Port} (h1 : PortFollows p q) (h2 : PortFollows q r) : PortFollows p r := by
  intro ho
  obtain ⟨o1, k1⟩ := h1 ho
  obtain ⟨o2, k2⟩ := h2 o1
  refine ⟨o2, ?_⟩
  rcases k2 with k2 | k2
  · rwa [k2]
  · exact .inr k2

theorem Port.accept_follows (r : Request) (p : Port) : PortFollows p (p.accept r) := by
  intro ho
  refine ⟨headsInOrder_append_waiting rfl ho, ?_⟩
  cases hh : p.head? with
  | some sl => exact .inl (by simpa [Port.head?, Port.accept, List.find?_append] using .inl hh)
  | none =>
    right
    intro sl hsl
    have hh' : p.slots.find? Slot.active = none := hh
    simp only [Port.head?, Port.accept, List.find?_append, hh', Option.none_or] at hsl
    rw [List.mem_singleton.mp (List.mem_of_find?_eq_some hsl)]

theorem acceptOffered_follows (l : List Request) (p : Port) : PortFollows p (acceptOffered l p) := by
  induction l generalizing p with
  | nil => exact .of_slots rfl
  | cons r rest ih =>
    unfold acceptOffered
    split
    · exact (p.accept_follows r).trans (ih _)
    · exact .of_slots rfl

/-- The oldest slot leaves when it is answered. -/
theorem PortFollows.of_delivered {p q : Port} {sl : Slot} (h : p.slots = sl :: q.slots) (ha : sl.active = false) :
    PortFollows p q := by
  intro ho
  rw [h] at ho
  exact ⟨by simpa [headsInOrder, ha] using ho, .inl (by simp [Port.head?, h, ha])⟩

theorem Slot.answer_active (i : Fin 4) (resp : Response) (sl : Slot) : (sl.answer i resp).active = sl.active := by
  unfold Slot.answer
  split
  next h => simp [Slot.active, h.2]
  next => rfl

/-- Only an issued slot is answered. -/
theorem Slot.answer_of_active {i : Fin 4} {resp : Response} {sl : Slot} (h : sl.active = true) :
    sl.answer i resp = sl := by
  unfold Slot.answer
  rw [if_neg]
  rintro ⟨-, hp⟩
  simp [Slot.active, hp] at h

theorem PortFollows.of_answer (i : Fin 4) (resp : Response) (p : Port) :
    PortFollows p { p with slots := p.slots.map (Slot.answer i resp) } := by
  have order : ∀ l : List Slot, headsInOrder l = true → headsInOrder (l.map (Slot.answer i resp)) = true := by
    intro l
    induction l with
    | nil => exact fun _ => rfl
    | cons x l ih =>
      intro h
      cases hx : x.active with
      | true =>
        have hl := (headsInOrder_cons hx).mp h
        rw [List.map_cons, headsInOrder_cons (by rw [Slot.answer_active, hx])]
        intro y hy
        obtain ⟨z, hz, rfl⟩ := List.mem_map.mp hy
        rw [Slot.answer_of_active (Slot.active_of_waiting (hl z hz)), hl z hz]
      | false =>
        simp only [List.map_cons, headsInOrder, Slot.answer_active, hx, Bool.false_eq_true, if_false] at h ⊢
        exact ih h
  have head : ∀ l : List Slot, (l.map (Slot.answer i resp)).find? Slot.active = l.find? Slot.active := by
    intro l
    rw [List.find?_map]
    have : Slot.active ∘ Slot.answer i resp = Slot.active := funext fun x => x.answer_active i resp
    rw [this]
    cases hf : l.find? Slot.active with
    | none => rfl
    | some sl => exact congrArg some (Slot.answer_of_active (List.find?_some hf))
  exact fun ho => ⟨order _ ho, .inl (head _)⟩

/-- The slots once the head has moved: in order again, whatever its new phase. -/
theorem headsInOrder_replaceHead (ph : SlotPhase) {l : List Slot} (h : headsInOrder l = true) :
    headsInOrder (replaceHead ph l) = true := by
  induction l with
  | nil => rfl
  | cons x l ih =>
    cases hx : x.active with
    | true =>
      have hl := (headsInOrder_cons hx).mp h
      simp only [replaceHead, hx, if_true]
      cases hy : Slot.active { x with phase := ph } with
      | true => exact (headsInOrder_cons hy).mpr hl
      | false => simpa [headsInOrder, hy] using headsInOrder_of_waiting hl
    | false =>
      simp only [headsInOrder, replaceHead, hx, Bool.false_eq_true, if_false] at h ⊢
      exact ih h

/-- When the head moves on to the memory or to its answer, the next request is one that has not been processed. -/
theorem head_after_leaving {l : List Slot} {ph : SlotPhase} (hph : ∀ x : Slot, Slot.active { x with phase := ph } = false)
    (h : headsInOrder l = true) {sl : Slot} (hsl : (replaceHead ph l).find? Slot.active = some sl) :
    sl.phase = .waiting := by
  induction l with
  | nil => cases hsl
  | cons x l ih =>
    cases hx : x.active with
    | true =>
      simp only [replaceHead, hx, if_true, List.find?_cons, hph x] at hsl
      exact (headsInOrder_cons hx).mp h sl (List.mem_of_find?_eq_some hsl)
    | false =>
      simp only [headsInOrder, replaceHead, hx, Bool.false_eq_true, if_false, List.find?_cons] at h hsl
      exact ih h hsl

/-- What becomes the head of a port whose head moves to phase `ph`: the same request in that phase, or one that has
not been processed. -/
theorem head_after_setHead {p : Port} {sl sl' : Slot} (h : p.head? = some sl) (ph : SlotPhase)
    (ho : headsInOrder p.slots = true) (h' : (p.setHead ph).head? = some sl') :
    sl' = { sl with phase := ph } ∨ sl'.phase = .waiting := by
  cases ha : Slot.active { sl with phase := ph } with
  | true => exact .inl (Option.some.inj (h'.symm.trans (head_setHead h ph ha)))
  | false => exact .inr (head_after_leaving (fun x => by simpa [Slot.active] using ha) ho h')

end Sys2Proof.Machine

namespace Sys2Proof.Machine

/-! ## The law of the staging path, in pieces

`StagingLaw w` is `StagingSound` with the device mode's law for the groups of `w` only: in LEAVING the BYPASS action winds
the groups down one after another (R179), and between two of them only those of `w` have been wound down. -/

/-- What the device mode says of the groups, where LEAVING has wound down the groups of `w` so far (R177, R179, R180). -/
def WindingShape (w : Fin 4 → Prop) (s : State) : Prop :=
  (s.mode = .bypass → ∀ g : Fin 4, (s.group g).state = .disabled) ∧
  (s.mode = .leaving → (∀ g : Fin 4, w g → (s.group g).state = .disabled ∨ (s.group g).state = .stopping) ∧
    ∃ g : Fin 4, (s.group g).state ≠ .disabled)

/-- Whether a write may be held for this cause while its group is in this state (R30, R34, R35). -/
def holdFits : HoldCause → GroupState → Bool
  | .admission, .running | .admission, .faulted | .disable, .stopping => true
  | .admission, .disabled | .admission, .stopping | .disable, .disabled | .disable, .running
  | .disable, .faulted => false

/-- The law of the staging path (R16, R22, R124, R177, R180). -/
structure StagingLaw (w : Fin 4 → Prop) (s : State) : Prop where
  counts : CountsAgree s
  order : headsInOrder s.hp.slots = true
  held : ∀ h : HeldWrite, s.held = some h → holdFits h.cause (s.group h.cls.group).state = true
  shape : ∀ g : Fin 4, GroupShape (s.group g)
  mode : WindingShape w s

theorem allDisabled_iff (s : State) : allDisabled s.groups = true ↔ ∀ g : Fin 4, (s.group g).state = .disabled := by
  simp [allDisabled, List.all_eq_true, State.group]

theorem allDisabled_false_iff (s : State) :
    allDisabled s.groups = false ↔ ∃ g : Fin 4, (s.group g).state ≠ .disabled := by
  rw [← Bool.not_eq_true, allDisabled_iff, not_forall]

theorem heldFits_iff (s : State) : heldFits s = true ↔
    ∀ h : HeldWrite, s.held = some h → holdFits h.cause (s.group h.cls.group).state = true := by
  unfold heldFits
  cases s.held with
  | none => simp
  | some h =>
    cases hc : h.cause <;> cases hg : (s.group h.cls.group).state <;> simp [holdFits, hc, hg]

theorem modeShape_iff (s : State) : ModeShape s ↔ WindingShape (fun _ => True) s := by
  unfold ModeShape WindingShape
  simp [allDisabled_false_iff]

theorem stagingSound_iff (s : State) : StagingSound s ↔ StagingLaw (fun _ => True) s := by
  unfold StagingSound
  rw [heldFits_iff, modeShape_iff]
  exact ⟨fun ⟨h1, h2, h3, h4, h5⟩ => ⟨h1, h2, h3, h4, h5⟩, fun h => ⟨h.counts, h.order, h.held, h.shape, h.mode⟩⟩

/-- A DISABLED group holds no entries (R16). -/
theorem StagingLaw.no_entries {w : Fin 4 → Prop} {s : State} (h : StagingLaw w s) {g : Fin 4}
    (hg : (s.group g).state = .disabled) {e : Entry} (he : e ∈ s.queue) : e.group ≠ g := by
  rintro rfl
  obtain ⟨ho, hs, -⟩ := (h.shape e.group).1 hg
  obtain ⟨co, cs, -⟩ := h.counts e.group
  rw [co] at ho
  rw [cs] at hs
  simp only [entryCount, List.length_eq_zero_iff, List.filter_eq_nil_iff] at ho hs
  have h1 := ho e he
  have h2 := hs e he
  cases hr : e.role <;> simp [hr] at h1 h2

/-! ## The quotas -/

/-- One group stays within its *quota*, and the *quota* within its range (R13, R22). -/
def GroupRec.WithinQuota (x : GroupRec) : Prop :=
  1 ≤ x.cfg.quota ∧ x.cfg.quota ≤ 512 ∧ x.openCount + x.sealedCount ≤ x.cfg.quota

/-- The queue, the groups and the entries stay within their bounds (R13, R20, R22). -/
def QuotaLaw (s : State) : Prop := WithinQuota s ∧ EntriesSound s

/-! ## The placement of words -/

/-- The groups that stage: those that are not DISABLED (R16). -/
def State.staging (s : State) (g : Fin 4) : Prop := (s.group g).state ≠ .disabled

/-- No word of a request lies in a STAGED window of a group of `on`. -/
def ClearOf (on : Fin 4 → Prop) (s : State) (r : Request) : Prop :=
  ∀ a ∈ requestWords r, ∀ g : Fin 4, on g → inWindowOf s g a = false

/-- Where the request of a processed head of port `p` may lie, with the groups of `on` staging: what waits to be passed
through is a read or clear of their windows (R11, R12), what is forwarded is a read (R82), and what is held is a write
inside the windows of its group (R5, R30, R35). -/
def PhasePlaced (on : Fin 4 → Prop) (s : State) (p : PortId) (r : Request) : SlotPhase → Prop
  | .head _ .passThrough => r.kind = .write → ClearOf on s r
  | .head _ .forwarded => r.kind = .read
  | .head cls (.held _ _) => p = .hp → r.kind = .write ∧ ∀ a ∈ requestWords r, inWindowOf s cls.group a = true
  | .waiting | .issued | .answered _ => True

/-- The head of port `p` is placed, with the groups of `on` staging. -/
def HeadPlaced (on : Fin 4 → Prop) (s : State) (p : PortId) : Prop :=
  ∀ sl : Slot, (s.port p).head? = some sl → PhasePlaced on s p sl.req sl.phase

/-- Every staged word lies in a window of its group (R20, R23). -/
def EntriesPlaced (s : State) : Prop := ∀ e ∈ s.queue, inWindowOf s e.group e.addr = true

/-- The law of the window table, beside the law of the staging path. -/
structure TableLaw (s : State) : Prop where
  order : headsInOrder s.cp.slots = true
  apart : WindowsApart s
  entries : EntriesPlaced s
  heads : ∀ p : PortId, HeadPlaced s.staging s p

theorem clearOfStaging_iff (s : State) (r : Request) : clearOfStaging s r = true ↔ ClearOf s.staging s r := by
  simp only [clearOfStaging, ClearOf, State.staging, List.all_eq_true, mem_four, forall_true_left, Bool.or_eq_true,
    Bool.not_eq_true', beq_iff_eq]
  exact forall₃_congr fun a _ g => ⟨fun h hg => h.resolve_right hg, fun h => or_iff_not_imp_right.mpr h⟩

theorem headPlaced_cp_iff (s : State) : HeadPlaced s.staging s .cp ↔ HeadClear s .cp := by
  unfold HeadPlaced HeadClear
  simp only [Option.mem_toList]
  refine forall₂_congr fun sl _ => ?_
  cases sl.phase with
  | head cls role => cases role <;> simp [PhasePlaced, SlotPhase.passesThrough, SlotPhase.forwards, clearOfStaging_iff]
  | _ => simp [PhasePlaced, SlotPhase.passesThrough, SlotPhase.forwards]

theorem headPlaced_hp_iff (s : State) : HeadPlaced s.staging s .hp ↔ HeldPlaced s ∧ HeadClear s .hp := by
  have held : HeldPlaced s ↔ ∀ sl : Slot, s.hp.head? = some sl → ∀ cls cause timer,
      sl.phase = .head cls (.held cause timer) →
        sl.req.kind = .write ∧ (requestWords sl.req).all (inWindowOf s cls.group) = true := by
    unfold HeldPlaced
    simp only [Option.mem_toList, held_eq_some]
    constructor
    · intro h sl hsl cls cause timer hp
      obtain ⟨i, r, ph⟩ := sl
      subst hp
      exact h ⟨r, cls, cause, timer⟩ ⟨i, hsl⟩
    · rintro h ⟨r, cls, cause, timer⟩ ⟨i, hi⟩
      exact h _ hi cls cause timer rfl
  rw [held]
  unfold HeadPlaced HeadClear
  simp only [Option.mem_toList, show s.port .hp = s.hp from rfl, ← forall_and]
  refine forall₂_congr fun sl _ => ?_
  cases sl.phase with
  | head cls role =>
    cases role <;>
      simp [PhasePlaced, SlotPhase.passesThrough, SlotPhase.forwards, clearOfStaging_iff, List.all_eq_true]
  | _ => simp [PhasePlaced, SlotPhase.passesThrough, SlotPhase.forwards]

theorem tableSound_iff (s : State) : TableSound s ↔ StagingLaw (fun _ => True) s ∧ TableLaw s := by
  unfold TableSound
  rw [stagingSound_iff]
  constructor
  · rintro ⟨hs, ho, hw, he, hh, h1, h2⟩
    refine ⟨hs, ho, hw, he, fun p => ?_⟩
    cases p with
    | hp => exact (headPlaced_hp_iff s).mpr ⟨hh, h1⟩
    | cp => exact (headPlaced_cp_iff s).mpr h2
  · rintro ⟨hs, ho, hw, he, hh⟩
    obtain ⟨h1, h2⟩ := (headPlaced_hp_iff s).mp (hh .hp)
    exact ⟨hs, ho, hw, he, h1, h2, (headPlaced_cp_iff s).mp (hh .cp)⟩

/-! ## Steps that keep the laws -/

/-- What a step from `s` to `t` keeps once the law of the staging path holds in `s`. -/
structure Kept (s t : State) : Prop where
  quota : QuotaLaw s → QuotaLaw t
  apart : WindowsApart s → WindowsApart t
  table : TableLaw s → TableLaw t

theorem Kept.refl (s : State) : Kept s s := ⟨id, id, id⟩

theorem Kept.trans {s t u : State} (h1 : Kept s t) (h2 : Kept t u) : Kept s u :=
  ⟨h2.quota ∘ h1.quota, h2.apart ∘ h1.apart, h2.table ∘ h1.table⟩

/-- A step from `s` to `t` keeps the law of the staging path, and the quotas and the window table with it. -/
def Keeps (w : Fin 4 → Prop) (s t : State) : Prop := StagingLaw w s → StagingLaw w t ∧ Kept s t

theorem Keeps.refl (w : Fin 4 → Prop) (s : State) : Keeps w s s := fun h => ⟨h, .refl s⟩

theorem Keeps.trans {w : Fin 4 → Prop} {s t u : State} (h1 : Keeps w s t) (h2 : Keeps w t u) : Keeps w s u := by
  intro h
  obtain ⟨ht, k1⟩ := h1 h
  obtain ⟨hu, k2⟩ := h2 ht
  exact ⟨hu, k1.trans k2⟩

theorem inWindowOf_congr {s t : State} (h : t.windows = s.windows) : inWindowOf t = inWindowOf s := by
  funext g a
  simp [inWindowOf, h]

theorem WindowsApart.congr {s t : State} (h : t.windows = s.windows) (hw : WindowsApart s) : WindowsApart t := by
  unfold WindowsApart at *
  rwa [h]

/-- Fewer groups that stage leave a head placed where it was. -/
theorem PhasePlaced.mono {on on' : Fin 4 → Prop} {s t : State} {p : PortId} {r : Request} {ph : SlotPhase}
    (hw : t.windows = s.windows) (hon : ∀ g, on' g → on g) (h : PhasePlaced on s p r ph) :
    PhasePlaced on' t p r ph := by
  cases ph with
  | head cls role =>
    cases role with
    | passThrough => exact fun hk a ha g hg => by rw [inWindowOf_congr hw]; exact h hk a ha g (hon g hg)
    | forwarded => exact h
    | held cause timer => simpa only [PhasePlaced, inWindowOf_congr hw] using h
  | _ => trivial

theorem HeadPlaced.mono {on on' : Fin 4 → Prop} {s t : State} {p : PortId} (hw : t.windows = s.windows)
    (hh : (t.port p).head? = (s.port p).head?) (hon : ∀ g, on' g → on g) (h : HeadPlaced on s p) :
    HeadPlaced on' t p := fun sl hsl => (h sl (hh ▸ hsl)).mono hw hon

/-- A port that moves on without processing a head keeps its head placed. -/
theorem HeadPlaced.follows {on : Fin 4 → Prop} {s t : State} {p : PortId} (hw : t.windows = s.windows)
    (hf : PortFollows (s.port p) (t.port p)) (ho : headsInOrder (s.port p).slots = true) (h : HeadPlaced on s p) :
    HeadPlaced on t p := by
  rcases (hf ho).2 with hk | hk
  · exact h.mono hw hk fun _ => id
  · exact fun sl hsl => by rw [hk sl hsl]; trivial

theorem QuotaLaw.congr {s t : State} (hg : t.groups = s.groups) (hq : t.queue = s.queue) (h : QuotaLaw s) :
    QuotaLaw t := by
  unfold QuotaLaw WithinQuota EntriesSound at *
  simpa only [State.group, hg, hq] using h

theorem State.staging_congr {s t : State} (h : t.groups = s.groups) : t.staging = s.staging := by
  funext g
  simp [State.staging, State.group, h]

/-- A change of the mode alone keeps what does not speak of it. -/
theorem Kept.of_mode (s : State) (m : DeviceMode) : Kept s { s with mode := m } :=
  ⟨id, id, fun h => ⟨h.order, h.apart, h.entries, h.heads⟩⟩

/-- A step that leaves the mode, the window table, the groups and the queue, and whose ports at most move on. -/
theorem keeps_of_follows {w : Fin 4 → Prop} {s t : State} (hm : t.mode = s.mode) (hw : t.windows = s.windows)
    (hg : t.groups = s.groups) (hq : t.queue = s.queue) (hf : ∀ p, PortFollows (s.port p) (t.port p)) :
    Keeps w s t := by
  intro h
  have hgr : ∀ g, t.group g = s.group g := State.group_congr hg
  obtain ⟨ho, hk⟩ := hf .hp h.order
  refine ⟨⟨?_, ho, ?_, ?_, ?_⟩, ⟨QuotaLaw.congr hg hq, WindowsApart.congr hw, fun ht => ?_⟩⟩
  · intro g; rw [hgr, hq]; exact h.counts g
  · intro x hx
    rw [hgr]
    obtain ⟨i, hi⟩ := held_eq_some.mp hx
    rcases hk with hk | hk
    · exact h.held x (held_eq_some.mpr ⟨i, hk ▸ hi⟩)
    · cases hk _ hi
  · intro g; rw [hgr]; exact h.shape g
  · obtain ⟨h1, h2⟩ := h.mode
    exact ⟨fun hb g => by rw [hgr]; exact h1 (hm ▸ hb) g, fun hl => by simpa only [hgr] using h2 (hm ▸ hl)⟩
  · refine ⟨(hf .cp ht.order).1, ht.apart.congr hw, ?_, fun p => ?_⟩
    · intro e he; rw [inWindowOf_congr hw]; exact ht.entries e (hq ▸ he)
    · rw [State.staging_congr hg]
      exact (ht.heads p).follows hw (hf p) (by cases p; exacts [h.order, ht.order])

/-- A step that touches nothing of the staging path. -/
theorem keeps_quiet {w : Fin 4 → Prop} {s t : State} (hm : t.mode = s.mode) (hw : t.windows = s.windows)
    (hg : t.groups = s.groups) (hq : t.queue = s.queue) (hh : t.hp.slots = s.hp.slots)
    (hc : t.cp.slots = s.cp.slots) : Keeps w s t :=
  keeps_of_follows hm hw hg hq fun p => by cases p; exacts [.of_slots hh, .of_slots hc]

theorem State.port_setHead (p : PortId) (ph : SlotPhase) (s : State) :
    (s.setHead p ph).port p = (s.port p).setHead ph := by cases p <;> rfl

theorem State.port_setHead_other {p q : PortId} (h : q ≠ p) (ph : SlotPhase) (s : State) :
    (s.setHead p ph).port q = s.port q := by cases p <;> cases q <;> simp_all [State.port]

/-- The head of a port, moved to a phase its request may have, is placed. -/
theorem headPlaced_setHead {on : Fin 4 → Prop} {s : State} {p : PortId} {sl : Slot} {ph : SlotPhase}
    (hsl : (s.port p).head? = some sl) (ho : headsInOrder (s.port p).slots = true)
    (h : PhasePlaced on s p sl.req ph) : HeadPlaced on (s.setHead p ph) p := by
  intro x hx
  rw [State.port_setHead] at hx
  rcases head_after_setHead hsl ph ho hx with he | he
  · rw [he]; exact h.mono (by simp) fun _ => id
  · rw [he]; trivial

/-- The head of a port moves to phase `ph`: a hold needs a group it fits, and the request must be placed. -/
theorem setHead_keeps {w : Fin 4 → Prop} {s : State} {p : PortId} {sl : Slot} {ph : SlotPhase}
    (hsl : (s.port p).head? = some sl)
    (hfit : p = .hp → ∀ cls cause timer, ph = .head cls (.held cause timer) →
      holdFits cause (s.group cls.group).state = true)
    (hplaced : TableLaw s → PhasePlaced s.staging s p sl.req ph) : Keeps w s (s.setHead p ph) := by
  intro h
  have hgr : ∀ g, (s.setHead p ph).group g = s.group g := State.group_congr (by simp)
  have order : ∀ q, headsInOrder (s.port q).slots = true → headsInOrder ((s.setHead p ph).port q).slots = true := by
    intro q hq
    by_cases hqp : q = p
    · subst hqp; rw [State.port_setHead]; exact headsInOrder_replaceHead ph hq
    · rwa [State.port_setHead_other hqp]
  refine ⟨⟨?_, order .hp h.order, ?_, ?_, ?_⟩, ⟨QuotaLaw.congr (by simp) (by simp), WindowsApart.congr (by simp),
    fun ht => ⟨order .cp ht.order, ht.apart.congr (by simp), ?_, fun q => ?_⟩⟩⟩
  · intro g; rw [hgr, State.setHead_queue]; exact h.counts g
  · intro x hx
    rw [hgr]
    by_cases hp : p = .hp
    · subst hp
      obtain ⟨i, hi⟩ := held_eq_some.mp hx
      rcases head_after_setHead hsl ph h.order hi with he | he
      · exact hfit rfl _ _ _ (congrArg Slot.phase he).symm
      · cases he
    · exact h.held x ((State.held_congr (congrArg Port.slots (State.port_setHead_other (Ne.symm hp) ph s))) ▸ hx)
  · intro g; rw [hgr]; exact h.shape g
  · simpa only [WindingShape, hgr, State.setHead_mode] using h.mode
  · intro e he
    rw [inWindowOf_congr (State.setHead_windows p ph s)]
    exact ht.entries e (by simpa using he)
  · rw [State.staging_congr (State.setHead_groups p ph s)]
    by_cases hqp : q = p
    · subst hqp
      exact headPlaced_setHead hsl (by cases q; exacts [h.order, ht.order]) (hplaced ht)
    · exact (ht.heads q).mono (by simp) (by rw [State.port_setHead_other hqp]) fun _ => id

/-- A port at most moves on. -/
theorem setPort_keeps {w : Fin 4 → Prop} {s : State} {p : PortId} {x : Port} (h : PortFollows (s.port p) x) :
    Keeps w s (s.setPort p x) := by
  refine keeps_of_follows (by simp) (by simp) (by simp) (by simp) fun q => ?_
  cases p <;> cases q
  · exact h
  · exact .of_slots rfl
  · exact .of_slots rfl
  · exact h

/-- The head of a port leaves it for the memory or for its answer. -/
theorem setHead_leaves_keeps {w : Fin 4 → Prop} {s : State} {p : PortId} {sl : Slot} {ph : SlotPhase}
    (hsl : (s.port p).head? = some sl) (hph : ∀ cls role, ph ≠ .head cls role) : Keeps w s (s.setHead p ph) :=
  setHead_keeps hsl (fun _ cls _ _ he => absurd he (hph cls _)) fun _ => by
    cases ph with
    | head cls role => exact absurd rfl (hph cls role)
    | _ => trivial

end Sys2Proof.Machine

namespace Sys2Proof.Machine

/-! ## Counting entries (R15, R22) -/

theorem entryCount_eq_countP (q : List Entry) (g : Fin 4) (role : Role) :
    entryCount q g role = q.countP (fun e => e.group == g && e.role == role) :=
  List.countP_eq_length_filter.symm

@[simp] theorem entryCount_append (l1 l2 : List Entry) (g : Fin 4) (role : Role) :
    entryCount (l1 ++ l2) g role = entryCount l1 g role + entryCount l2 g role := by
  simp [entryCount]

/-- A change of entries that leaves groups and roles leaves every count. -/
theorem entryCount_map {f : Entry → Entry} (hg : ∀ e, (f e).group = e.group) (hr : ∀ e, (f e).role = e.role)
    (q : List Entry) (g : Fin 4) (role : Role) : entryCount (q.map f) g role = entryCount q g role := by
  simp [entryCount_eq_countP, List.countP_map, Function.comp_def, hg, hr]

theorem entryCount_zero {q : List Entry} {g : Fin 4} {role : Role} :
    entryCount q g role = 0 ↔ ∀ e ∈ q, ¬ (e.group = g ∧ e.role = role) := by
  simp [entryCount_eq_countP, List.countP_eq_zero]

/-- A seal turns the OPEN entries of its group into SEALED ones (R38). -/
theorem entryCount_sealFor (q : List Entry) (g : Fin 4) :
    entryCount (q.map (Entry.sealFor g)) g .opened = 0 ∧
    entryCount (q.map (Entry.sealFor g)) g .sealed = entryCount q g .opened + entryCount q g .sealed ∧
    ∀ k, k ≠ g → ∀ role, entryCount (q.map (Entry.sealFor g)) k role = entryCount q k role := by
  induction q with
  | nil => exact ⟨rfl, rfl, fun _ _ _ => rfl⟩
  | cons e q ih =>
    obtain ⟨h1, h2, h3⟩ := ih
    have hcons : ∀ (e : Entry) (q : List Entry) (k : Fin 4) (role : Role), entryCount (e :: q) k role =
        entryCount q k role + if e.group = k ∧ e.role = role then 1 else 0 := by
      intro e q k role
      simp [entryCount_eq_countP, List.countP_cons]
    simp only [List.map_cons, hcons]
    by_cases he : e.group = g ∧ e.role = .opened
    · have hs : Entry.sealFor g e = { e with role := .sealed, issue := .notIssued } := if_pos he
      refine ⟨by simp [hs, h1], by simp [hs, h2, he]; omega, fun k hk role => ?_⟩
      have hne : e.group ≠ k := by rw [he.1]; exact Ne.symm hk
      simp [hs, h3 k hk, hne]
    · have hs : Entry.sealFor g e = e := if_neg he
      refine ⟨by simp [hs, h1, he], by simp [hs, h2, he]; omega, fun k hk role => by rw [hs, h3 k hk]⟩

/-- The SEALED entry that leaves the queue is one of its group (R40). -/
theorem entryCount_eraseP {q : List Entry} {g : Fin 4} {a : Addr} {e : Entry}
    (h : q.find? (Entry.at g .sealed a) = some e) (k : Fin 4) (role : Role) :
    entryCount (q.eraseP (Entry.at g .sealed a)) k role =
      entryCount q k role - if k = g ∧ role = .sealed then 1 else 0 := by
  obtain ⟨hat, l1, l2, hq, hl⟩ := List.find?_eq_some_iff_append.mp h
  have hn : ∀ b ∈ l1, ¬ Entry.at g .sealed a b = true := fun b hb => by simpa using hl b hb
  rw [hq, List.eraseP_append_right _ hn, List.eraseP_cons_of_pos hat]
  simp only [Entry.at, Bool.and_eq_true, beq_iff_eq] at hat
  obtain ⟨⟨hg, hr⟩, -⟩ := hat
  simp only [entryCount_eq_countP, List.countP_append, List.countP_cons, hg, hr, Bool.and_eq_true, beq_iff_eq]
  by_cases hk : k = g ∧ role = .sealed
  · rw [if_pos hk, if_pos ⟨hk.1.symm, hk.2.symm⟩]; omega
  · rw [if_neg hk, if_neg fun h => hk ⟨h.1.symm, h.2.symm⟩]; omega

/-- DISCARD takes the OPEN entries of its group and no other (R41). -/
theorem entryCount_discard (q : List Entry) (g k : Fin 4) (role : Role) :
    entryCount (q.filter (fun e => !(e.group == g && e.role == .opened))) k role =
      if k = g ∧ role = .opened then 0 else entryCount q k role := by
  simp only [entryCount, List.filter_filter]
  split
  next h =>
    obtain ⟨rfl, rfl⟩ := h
    simp
  next h =>
    congr 1
    refine List.filter_congr fun e _ => ?_
    by_cases he : e.group = k ∧ e.role = role
    · obtain ⟨rfl, rfl⟩ := he
      rcases not_and_or.mp h with h | h <;> simp [h]
    · have : (e.group == k && e.role == role) = false := Bool.eq_false_iff.mpr (by simpa using he)
      simp [this]

/-- An admission adds its *need* to the OPEN entries of its group (R24, R26). -/
theorem entryCount_admitWords (g : Fin 4) (r : Request) (q : List Entry) (k : Fin 4) (role : Role) :
    entryCount (admitWords g r q) k role =
      entryCount q k role + if k = g ∧ role = .opened then need q g r else 0 := by
  rw [admitWords_eq, entryCount_append,
    entryCount_map (fun e => (touchedBy_key g _ e).1) (fun e => (touchedBy_key g _ e).2.1)]
  congr 1
  rw [entryCount_eq_countP, List.countP_map]
  split
  next h =>
    obtain ⟨rfl, rfl⟩ := h
    simp [newEntry, need, Function.comp_def]
  next h =>
    rw [List.countP_eq_zero]
    intro w _
    simp only [newEntry, Function.comp_apply, Bool.and_eq_true, beq_iff_eq]
    exact fun hc => h ⟨hc.1.symm, hc.2.symm⟩

/-! ## Steps of one group -/

/-- A group admits, stops or is DISABLED before a step exactly when it does after it. -/
def SteadyState (x y : GroupState) : Prop := (x = .disabled ↔ y = .disabled) ∧ (x = .stopping ↔ y = .stopping)

theorem SteadyState.refl (x : GroupState) : SteadyState x x := ⟨Iff.rfl, Iff.rfl⟩

theorem SteadyState.holdFits {x y : GroupState} (h : SteadyState x y) {c : HoldCause} (hc : holdFits c x = true) :
    holdFits c y = true := by
  obtain ⟨hd, hs⟩ := h
  cases c <;> cases x <;> cases y <;> simp_all [Machine.holdFits]

/-- The entry `e` is `x` with another role or *issue state*. -/
def SameWord (e x : Entry) : Prop := e.group = x.group ∧ e.addr = x.addr ∧ e.data = x.data ∧ e.mask = x.mask

/-- A step that changes the record of group `g` and its entries alone, with no word added and none moved: a seal, a
completion, an entry that leaves the queue. -/
structure GroupStep (g : Fin 4) (s t : State) : Prop where
  mode : t.mode = s.mode
  windows : t.windows = s.windows
  hp : t.hp.slots = s.hp.slots
  cp : t.cp.slots = s.cp.slots
  others : ∀ k, k ≠ g → t.group k = s.group k
  steady : SteadyState (s.group g).state (t.group g).state
  words : ∀ e ∈ t.queue, ∃ x ∈ s.queue, SameWord e x
  length : t.queue.length ≤ s.queue.length
  otherCounts : ∀ k, k ≠ g → ∀ role, entryCount t.queue k role = entryCount s.queue k role
  counts : (t.group g).openCount = entryCount t.queue g .opened ∧
    (t.group g).sealedCount = entryCount t.queue g .sealed ∧
    ((t.group g).hasSealed = false → (t.group g).sealedCount = 0)
  shape : GroupShape (t.group g)
  quota : (s.group g).WithinQuota → (t.group g).WithinQuota

theorem EntriesSound.of_words {s t : State} (hw : ∀ e ∈ t.queue, ∃ x ∈ s.queue, SameWord e x)
    (h : EntriesSound s) : EntriesSound t := by
  intro e he
  obtain ⟨x, hx, -, -, hd, hm⟩ := hw e he
  rw [hd, hm]
  exact h x hx

theorem EntriesPlaced.of_words {s t : State} (hwin : t.windows = s.windows)
    (hw : ∀ e ∈ t.queue, ∃ x ∈ s.queue, SameWord e x) (h : EntriesPlaced s) : EntriesPlaced t := by
  intro e he
  obtain ⟨x, hx, hg, ha, -, -⟩ := hw e he
  rw [inWindowOf_congr hwin, hg, ha]
  exact h x hx

theorem GroupStep.keeps {w : Fin 4 → Prop} {g : Fin 4} {s t : State} (h : GroupStep g s t) : Keeps w s t := by
  intro hs
  have steady : ∀ k, SteadyState (s.group k).state (t.group k).state := by
    intro k
    by_cases hk : k = g
    · exact hk ▸ h.steady
    · rw [h.others k hk]; exact .refl _
  refine ⟨⟨fun k => ?_, by rw [h.hp]; exact hs.order, fun x hx => ?_, fun k => ?_, ?_⟩, ⟨fun hq => ⟨⟨fun k => ?_, ?_⟩, ?_⟩,
    WindowsApart.congr h.windows, fun ht => ⟨by rw [h.cp]; exact ht.order, ht.apart.congr h.windows,
      ht.entries.of_words h.windows h.words, fun p => ?_⟩⟩⟩
  · by_cases hk : k = g
    · exact hk ▸ h.counts
    · rw [h.others k hk, h.otherCounts k hk, h.otherCounts k hk]; exact hs.counts k
  · rw [State.held_congr h.hp] at hx
    exact (steady _).holdFits (hs.held x hx)
  · by_cases hk : k = g
    · exact hk ▸ h.shape
    · rw [h.others k hk]; exact hs.shape k
  · obtain ⟨h1, h2⟩ := hs.mode
    rw [← h.mode] at h1 h2
    refine ⟨fun hb k => (steady k).1.mp (h1 hb k), fun hl => ?_⟩
    obtain ⟨hw, k, hk⟩ := h2 hl
    exact ⟨fun k hwk => (hw k hwk).imp (steady k).1.mp (steady k).2.mp, k, mt (steady k).1.mpr hk⟩
  · by_cases hk : k = g
    · exact hk ▸ h.quota (hq.1.1 g)
    · rw [h.others k hk]; exact hq.1.1 k
  · exact h.length.trans hq.1.2
  · exact EntriesSound.of_words h.words hq.2
  · refine (ht.heads p).mono h.windows ?_ fun k hk => mt (steady k).1.mp hk
    cases p
    · exact congrArg (List.find? Slot.active) h.hp
    · exact congrArg (List.find? Slot.active) h.cp

/-- A step of one group that leaves the queue. -/
theorem GroupStep.of_record {w : Fin 4 → Prop} {g : Fin 4} {s t : State} {f : GroupRec → GroupRec}
    (hs : StagingLaw w s) (hg : t.groups = s.groups.modify g f) (hq : t.queue = s.queue) (hm : t.mode = s.mode)
    (hw : t.windows = s.windows) (hh : t.hp.slots = s.hp.slots) (hc : t.cp.slots = s.cp.slots)
    (hsteady : SteadyState (s.group g).state (f (s.group g)).state)
    (hopen : (f (s.group g)).openCount = (s.group g).openCount)
    (hsealed : (f (s.group g)).sealedCount = (s.group g).sealedCount)
    (hnone : (f (s.group g)).hasSealed = false → (s.group g).sealedCount = 0)
    (hshape : GroupShape (f (s.group g)))
    (hquota : (s.group g).WithinQuota → (f (s.group g)).WithinQuota) : GroupStep g s t := by
  have hg' : ∀ k, t.group k = if k = g then f (s.group g) else s.group k := by simp [State.group, hg]
  obtain ⟨c1, c2, -⟩ := hs.counts g
  exact
    { mode := hm, windows := hw, hp := hh, cp := hc
      others := fun k hk => by rw [hg', if_neg hk]
      steady := by rwa [hg', if_pos rfl]
      words := fun e he => ⟨e, hq ▸ he, rfl, rfl, rfl, rfl⟩
      length := by rw [hq]
      otherCounts := fun k _ role => by rw [hq]
      counts := by
        rw [hg', if_pos rfl, hq, hopen, hsealed]
        exact ⟨c1, c2, hnone⟩
      shape := by rwa [hg', if_pos rfl]
      quota := by rwa [hg', if_pos rfl] }

/-! ## Seals and completions (R38, R47, R74) -/

/-- A step of one group that seals its open epoch, whatever else it does to its record (R38, R47). -/
theorem GroupStep.of_seal {w : Fin 4 → Prop} {g : Fin 4} {s t : State} {f : GroupRec → GroupRec}
    (hs : StagingLaw w s) (hzero : (s.group g).sealedCount = 0) (hon : (s.group g).state ≠ .disabled)
    (hf : ∀ x : GroupRec, (f x).cfg = x.cfg ∧ (f x).state = x.state ∧ (f x).openCount = x.openCount)
    (hg : t.groups = s.groups.modify g (fun x => (f x).onSeal)) (hq : t.queue = s.queue.map (Entry.sealFor g))
    (hm : t.mode = s.mode) (hw : t.windows = s.windows) (hh : t.hp.slots = s.hp.slots)
    (hc : t.cp.slots = s.cp.slots) : GroupStep g s t := by
  have hg' : ∀ k, t.group k = if k = g then (f (s.group g)).onSeal else s.group k := by simp [State.group, hg]
  obtain ⟨hcfg, hst, hopen⟩ := hf (s.group g)
  obtain ⟨c1, c2, -⟩ := hs.counts g
  obtain ⟨e1, e2, e3⟩ := entryCount_sealFor s.queue g
  have hgg : t.group g = (f (s.group g)).onSeal := by rw [hg', if_pos rfl]
  exact
    { mode := hm, windows := hw, hp := hh, cp := hc
      others := fun k hk => by rw [hg', if_neg hk]
      steady := by rw [hgg]; simpa [GroupRec.onSeal, hst] using SteadyState.refl _
      words := fun e he => by
        obtain ⟨x, hx, rfl⟩ := List.mem_map.mp (hq ▸ he)
        refine ⟨x, hx, ?_⟩
        unfold Entry.sealFor
        split <;> exact ⟨rfl, rfl, rfl, rfl⟩
      length := by rw [hq, List.length_map]
      otherCounts := fun k hk role => by rw [hq]; exact e3 k hk role
      counts := by
        rw [hgg, hq, e1, e2]
        refine ⟨rfl, ?_, fun h => by cases h⟩
        rw [← c1, ← c2, hzero]
        exact hopen
      shape := by
        rw [hgg]
        exact ⟨fun hd => absurd (hst.symm.trans hd) hon, fun _ => rfl⟩
      quota := by
        rw [hgg]
        rintro ⟨q1, q2, q3⟩
        simp only [GroupRec.WithinQuota, GroupRec.onSeal, hcfg, hopen]
        exact ⟨q1, q2, by omega⟩ }

/-- A seal of a group that has no sealed epoch and is not DISABLED keeps the laws. -/
theorem sealCore_keeps {w : Fin 4 → Prop} {g : Fin 4} {s : State} (hno : (s.group g).hasSealed = false)
    (hon : (s.group g).state ≠ .disabled) : Keeps w s (sealCore g s) := fun hs =>
  (GroupStep.of_seal (t := sealCore g s) (f := id) hs ((hs.counts g).2.2 hno) hon (fun _ => ⟨rfl, rfl, rfl⟩) rfl rfl rfl
    rfl rfl rfl).keeps hs

theorem hasSealedEntry_false {w : Fin 4 → Prop} {s : State} (hs : StagingLaw w s) {g : Fin 4}
    (h : hasSealedEntry s.queue g = false) : (s.group g).sealedCount = 0 := by
  rw [(hs.counts g).2.1, entryCount_zero]
  simpa [hasSealedEntry, List.any_eq_false] using h

theorem inWindowOf_iff {s : State} (hw : WindowsApart s) (g : Fin 4) (a : Addr) : inWindowOf s g a = true ↔
    ∃ n, windowOf s.windows a = some n ∧ (s.windows.get n).kind = .staged ∧ (s.windows.get n).group = g := by
  simp only [inWindowOf, List.any_eq_true, Bool.and_eq_true, beq_iff_eq, mem_eight, true_and]
  exact exists_congr fun n => ⟨fun ⟨⟨h1, h2⟩, h3⟩ => ⟨windowOf_eq hw h1, h2, h3⟩,
    fun ⟨h1, h2, h3⟩ => ⟨⟨windowOf_covers h1, h2⟩, h3⟩⟩

/-- A word lies in the STAGED windows of one group at most (R2, R3). -/
theorem inWindowOf_unique {s : State} (hw : WindowsApart s) {g k : Fin 4} {a : Addr}
    (hg : inWindowOf s g a = true) (hk : inWindowOf s k a = true) : k = g := by
  obtain ⟨n, h1, -, h2⟩ := (inWindowOf_iff hw g a).mp hg
  obtain ⟨m, h3, -, h4⟩ := (inWindowOf_iff hw k a).mp hk
  rw [h1] at h3
  cases h3
  exact h4.symm.trans h2

/-- What an end of the hold of group `g` does to the head of the Host Port: nothing, when no write is held for the
group; else the held write moves to the phase `ph` gives it. -/
theorem hold_cases {g : Fin 4} {s t : State} {ph : HeldWrite → SlotPhase}
    (h : (s.held = none → t = s) ∧ (∀ h, s.held = some h → h.cls.group ≠ g → t = s) ∧
      ∀ h, s.held = some h → h.cls.group = g → t = s.setHead .hp (ph h)) :
    ((∀ h : HeldWrite, s.held = some h → h.cls.group ≠ g) ∧ t = s) ∨
    ∃ (i : Fin 4) (h : HeldWrite), s.hp.head? = some ⟨i, h.req, .head h.cls (.held h.cause h.timer)⟩ ∧
      h.cls.group = g ∧ t = s.setHead .hp (ph h) := by
  obtain ⟨h1, h2, h3⟩ := h
  cases hh : s.held with
  | none => exact .inl ⟨fun _ hx => (by cases hx), h1 hh⟩
  | some h =>
    by_cases hg : h.cls.group = g
    · obtain ⟨i, hi⟩ := held_eq_some.mp hh
      exact .inr ⟨i, h, hi, hg, h3 h hh hg⟩
    · exact .inl ⟨fun x hx => by cases hx; exact hg, h2 h hh hg⟩

end Sys2Proof.Machine

namespace Sys2Proof.Machine

/-! ## The end of a group's admission (R18, R34, R36, R58) -/

/-- What a write held for a group waits for once the group is in this state: the memory when it is DISABLED (R36), else
DISABLED (R34). -/
def closedRole (x : GroupState) (h : HeldWrite) : HeadRole :=
  if x = .disabled then .passThrough else .held .disable h.timer

/-- A step after which group `g` no longer admits: it is DISABLED or STOPPING, with the entries it had, and a write held
for it waits for what that state gives. -/
structure Closes (g : Fin 4) (s t : State) : Prop where
  windows : t.windows = s.windows
  queue : t.queue = s.queue
  cp : t.cp.slots = s.cp.slots
  others : ∀ k, k ≠ g → t.group k = s.group k
  wasOn : s.staging g
  closed : (t.group g).state = .disabled ∨ (t.group g).state = .stopping
  hp : ((∀ h : HeldWrite, s.held = some h → h.cls.group ≠ g) ∧ t.hp.slots = s.hp.slots) ∨
    ∃ (i : Fin 4) (h : HeldWrite), s.hp.head? = some ⟨i, h.req, .head h.cls (.held h.cause h.timer)⟩ ∧
      h.cls.group = g ∧ t.hp.slots = replaceHead (.head h.cls (closedRole (t.group g).state h)) s.hp.slots
  cfg : (t.group g).cfg = (s.group g).cfg
  openCount : (t.group g).openCount = (s.group g).openCount
  sealedCount : (t.group g).sealedCount = (s.group g).sealedCount
  noSealed : (t.group g).hasSealed = false → (s.group g).sealedCount = 0
  shape : GroupShape (t.group g)

/-- The head of the Host Port after a hold has changed what it waits for. -/
theorem Closes.head {g : Fin 4} {s t : State} (h : Closes g s t) :
    ((∀ h : HeldWrite, s.held = some h → h.cls.group ≠ g) ∧ t.hp.head? = s.hp.head?) ∨
    ∃ (i : Fin 4) (h : HeldWrite), s.hp.head? = some ⟨i, h.req, .head h.cls (.held h.cause h.timer)⟩ ∧
      h.cls.group = g ∧ t.hp.head? = some ⟨i, h.req, .head h.cls (closedRole (t.group g).state h)⟩ := by
  rcases h.hp with ⟨hn, hp⟩ | ⟨i, x, hx, hg, hp⟩
  · exact .inl ⟨hn, by simp [Port.head?, hp]⟩
  · refine .inr ⟨i, x, hx, hg, ?_⟩
    have := head_setHead hx (.head x.cls (closedRole (t.group g).state x)) rfl
    simpa only [Port.head?, Port.setHead_slots, hp] using this

theorem Closes.state_of {g : Fin 4} {s t : State} (h : Closes g s t) {k : Fin 4}
    (hk : (s.group k).state = .disabled ∨ (s.group k).state = .stopping) :
    (t.group k).state = .disabled ∨ (t.group k).state = .stopping := by
  by_cases hkg : k = g
  · exact hkg ▸ h.closed
  · rwa [h.others k hkg]

theorem Closes.law {w w' : Fin 4 → Prop} {g : Fin 4} {s t : State} (h : Closes g s t) (hs : StagingLaw w s)
    (hm : WindingShape w' t) : StagingLaw w' t := by
  refine ⟨fun k => ?_, ?_, fun x hx => ?_, fun k => ?_, hm⟩
  · by_cases hk : k = g
    · subst hk
      rw [h.openCount, h.sealedCount, h.queue]
      exact ⟨(hs.counts k).1, (hs.counts k).2.1, h.noSealed⟩
    · rw [h.others k hk, h.queue]; exact hs.counts k
  · rcases h.hp with ⟨-, hp⟩ | ⟨i, x, hx, -, hp⟩
    · rw [hp]; exact hs.order
    · rw [hp]; exact headsInOrder_replaceHead _ hs.order
  · obtain ⟨i, hi⟩ := held_eq_some.mp hx
    rcases h.head with ⟨hn, hp⟩ | ⟨j, y, -, hg, hp⟩
    · have hx' : s.held = some x := held_eq_some.mpr ⟨i, hp ▸ hi⟩
      rw [h.others _ (hn x hx')]
      exact hs.held x hx'
    · rw [hp] at hi
      obtain ⟨-, -, hcls, hrole⟩ : j = i ∧ y.req = x.req ∧ y.cls = x.cls ∧
          closedRole (t.group g).state y = .held x.cause x.timer := by simpa using hi
      rw [← hcls, hg]
      rcases h.closed with hd | hd
      · simp [closedRole, hd] at hrole
      · simp only [closedRole, hd, reduceCtorEq, if_false, HeadRole.held.injEq] at hrole
        rw [hd, ← hrole.1]
        rfl
  · by_cases hk : k = g
    · exact hk ▸ h.shape
    · rw [h.others k hk]; exact hs.shape k

theorem Closes.kept {g : Fin 4} {s t : State} (h : Closes g s t) : Kept s t := by
  have fewer : ∀ k, t.staging k → s.staging k := fun k hk => by
    by_cases hkg : k = g
    · exact hkg ▸ h.wasOn
    · unfold State.staging at hk ⊢; rwa [h.others k hkg] at hk
  refine ⟨fun hq => ⟨⟨fun k => ?_, by rw [h.queue]; exact hq.1.2⟩, by unfold EntriesSound; rw [h.queue]; exact hq.2⟩,
    WindowsApart.congr h.windows, fun ht => ⟨by rw [h.cp]; exact ht.order, ht.apart.congr h.windows, fun e he => ?_, ?_⟩⟩
  · by_cases hk : k = g
    · subst hk
      rw [h.cfg, h.openCount, h.sealedCount]
      exact hq.1.1 k
    · rw [h.others k hk]; exact hq.1.1 k
  · rw [inWindowOf_congr h.windows]
    exact ht.entries e (h.queue ▸ he)
  · rintro (_ | _)
    · rcases h.head with ⟨-, hp⟩ | ⟨i, x, hx, hg, hp⟩
      · exact (ht.heads .hp).mono h.windows hp fewer
      · have hin : x.req.kind = .write ∧ ∀ a ∈ requestWords x.req, inWindowOf s x.cls.group a = true :=
          ht.heads .hp _ hx rfl
        intro sl hsl
        obtain rfl := Option.some.inj (hp.symm.trans hsl)
        rcases h.closed with hd | hd
        · simp only [closedRole, hd, if_true]
          intro _ a ha k hk
          rw [inWindowOf_congr h.windows, Bool.eq_false_iff]
          intro hka
          have hkg := inWindowOf_unique ht.apart (hin.2 a ha) hka
          exact hk (hkg ▸ hg ▸ hd)
        · simp only [closedRole, hd, reduceCtorEq, if_false]
          intro _
          rwa [inWindowOf_congr h.windows]
    · exact (ht.heads .cp).mono h.windows (congrArg (List.find? Slot.active) h.cp) fewer

/-- Group `g` in another state, with nothing else changed. -/
abbrev State.inState (g : Fin 4) (x : GroupState) (s : State) : State := s.modGroup g (fun r => { r with state := x })

/-- The groups and the mode once group `g` has reached DISABLED (R18, R180). -/
theorem reachDisabled_mode (g : Fin 4) (s : State) :
    ((reachDisabled g s).mode = .bypass ∧ ∀ k, ((reachDisabled g s).group k).state = .disabled) ∨
    ((reachDisabled g s).mode = s.mode ∧
      (s.mode = .leaving → ∃ k, ((reachDisabled g s).group k).state ≠ .disabled)) := by
  obtain ⟨p, hp⟩ := releaseHeld_eq g (s.inState g .disabled)
  obtain ⟨l1, l2, l3⟩ := leavingCheck_spec (releaseHeld g (s.inState g .disabled))
  have hr : reachDisabled g s =
    leavingCheck (releaseHeld g (s.inState g .disabled)) := rfl
  rw [hr]
  generalize hu : releaseHeld g (s.inState g .disabled) = u at *
  have hm : u.mode = s.mode := by rw [hp]; rfl
  by_cases hl : u.mode = .leaving
  · cases hd : allDisabled u.groups with
    | true => rw [l3 hl hd]; exact .inl ⟨rfl, (allDisabled_iff u).mp hd⟩
    | false => rw [l2 hd]; exact .inr ⟨hm, fun _ => (allDisabled_false_iff u).mp hd⟩
  · rw [l1 hl]; exact .inr ⟨hm, fun h => absurd (hm.trans h) hl⟩

/-- A group whose entries are gone reaches DISABLED, after any change of its record that leaves its state and counts:
none for DISABLE_GROUP (R18), the completion for a STOPPING group (R58). -/
theorem Closes.of_reachDisabled {g : Fin 4} {s u : State} {f : GroupRec → GroupRec} (hon : s.staging g)
    (ho : (s.group g).openCount = 0) (hs : (s.group g).sealedCount = 0)
    (hf : ∀ x : GroupRec, (f x).cfg = x.cfg ∧ (f x).openCount = x.openCount ∧ (f x).sealedCount = x.sealedCount)
    (hnone : (f (s.group g)).hasSealed = false) (hg : u.groups = s.groups.modify g f) (hq : u.queue = s.queue)
    (hw : u.windows = s.windows) (hh : u.hp = s.hp) (hc : u.cp = s.cp) : Closes g s (reachDisabled g u) := by
  obtain ⟨p, m, e, he⟩ := reachDisabled_eq g u
  obtain ⟨f1, f2, f3⟩ := hf (s.group g)
  have hgr : ∀ k, (reachDisabled g u).group k =
      if k = g then { f (s.group g) with state := .disabled } else s.group k := by
    intro k
    rw [he]
    by_cases hk : k = g <;> simp [State.group, hg, hk]
  have hgg := (hgr g).trans (if_pos rfl)
  have hhp : (reachDisabled g u).hp =
      (releaseHeld g (u.inState g .disabled)).hp := by
    obtain ⟨m, e, hl⟩ := leavingCheck_eq (releaseHeld g (u.inState g .disabled))
    change (leavingCheck (releaseHeld g (u.inState g .disabled))).hp = _
    rw [hl]
  have hheld : (u.inState g .disabled).held = s.held :=
    State.held_congr (by rw [State.modGroup_hp, hh])
  refine ⟨by rw [he]; exact hw, by rw [he]; exact hq, by rw [he]; exact congrArg Port.slots hc,
    fun k hk => (hgr k).trans (if_neg hk), hon, .inl (by rw [hgg]), ?_, by rw [hgg]; exact f1, by rw [hgg]; exact f2,
    by rw [hgg]; exact f3, fun _ => hs, ?_⟩
  · rw [hhp, hgg]
    rcases hold_cases (releaseHeld_spec g (u.inState g .disabled)) with
      ⟨hn, hr⟩ | ⟨i, x, hx, hxg, hr⟩
    · exact .inl ⟨hheld ▸ hn, by rw [hr]; exact congrArg Port.slots hh⟩
    · rw [State.modGroup_hp, hh] at hx
      refine .inr ⟨i, x, hx, hxg, ?_⟩
      rw [hr, State.setHead_hp_hp, State.modGroup_hp, hh]
      rfl
  · rw [hgg]
    exact ⟨fun _ => ⟨f2.trans ho, f3.trans hs, hnone⟩, fun h => by cases h⟩

/-- The mode's law once group `g` has reached DISABLED (R180). -/
theorem WindingShape.reachDisabled {w : Fin 4 → Prop} {g : Fin 4} {s u : State} (h : WindingShape w s)
    (hm : u.mode = s.mode) (hc : Closes g s (reachDisabled g u)) :
    WindingShape (fun k => w k ∨ k = g) (reachDisabled g u) := by
  rcases reachDisabled_mode g u with ⟨hb, hd⟩ | ⟨hb, hd⟩
  · exact ⟨fun _ => hd, fun hl => by rw [hb] at hl; cases hl⟩
  · rw [hm] at hb hd
    refine ⟨fun hy k => ?_, fun hy => ⟨fun k hk => ?_, hd (hb ▸ hy)⟩⟩
    · exact absurd (h.1 (hb ▸ hy) g) hc.wasOn
    · rcases hk with hk | rfl
      · exact hc.state_of ((h.2 (hb ▸ hy)).1 k hk)
      · exact hc.closed

theorem WindingShape.weaken {w w' : Fin 4 → Prop} {s : State} (hw : ∀ g, w' g → w g) (h : WindingShape w s) :
    WindingShape w' s :=
  ⟨h.1, fun hl => ⟨fun g hg => (h.2 hl).1 g (hw g hg), (h.2 hl).2⟩⟩

theorem StagingLaw.weaken {w w' : Fin 4 → Prop} {s : State} (hw : ∀ g, w' g → w g) (h : StagingLaw w s) :
    StagingLaw w' s :=
  { h with mode := h.mode.weaken hw }

/-- A RUNNING or FAULTED group with a sealed epoch becomes STOPPING (R18, R34). -/
theorem stop_closes {g : Fin 4} {s : State} (hon : s.staging g) (hsealed : (s.group g).hasSealed = true) :
    Closes g s (convertHold g (s.inState g .stopping)) := by
  obtain ⟨p, hp⟩ := convertHold_eq g (s.inState g .stopping)
  have hgr : ∀ k, (convertHold g (s.inState g .stopping)).group k =
      if k = g then { s.group g with state := .stopping } else s.group k := by
    intro k
    rw [hp]
    by_cases hk : k = g <;> simp [State.group, hk]
  have hgg := (hgr g).trans (if_pos rfl)
  have hheld : (s.inState g .stopping).held = s.held := rfl
  refine ⟨by rw [hp]; rfl, by rw [hp]; rfl, by rw [hp]; rfl, fun k hk => (hgr k).trans (if_neg hk), hon,
    .inr (by rw [hgg]), ?_, by rw [hgg], by rw [hgg], by rw [hgg], fun hn => ?_, ?_⟩
  · rw [hgg]
    rcases hold_cases (convertHold_spec g (s.inState g .stopping)) with
      ⟨hn, hr⟩ | ⟨i, x, hx, hxg, hr⟩
    · exact .inl ⟨hheld ▸ hn, by rw [hr]; rfl⟩
    · exact .inr ⟨i, x, hx, hxg, by rw [hr]; rfl⟩
  · rw [hgg] at hn
    rw [hsealed] at hn
    cases hn
  · rw [hgg]
    exact ⟨fun h => (by cases h), fun _ => hsealed⟩

/-- The mode's law once group `g` is STOPPING. -/
theorem WindingShape.stop {w : Fin 4 → Prop} {g : Fin 4} {s t : State} (h : WindingShape w s) (hm : t.mode = s.mode)
    (hc : Closes g s t) (hg : (t.group g).state = .stopping) : WindingShape (fun k => w k ∨ k = g) t := by
  refine ⟨fun hy => absurd (h.1 (hm ▸ hy) g) hc.wasOn, fun hy => ⟨fun k hk => ?_, g, by rw [hg]; simp⟩⟩
  rcases hk with hk | rfl
  · exact hc.state_of ((h.2 (hm ▸ hy)).1 k hk)
  · exact hc.closed

/-! ## Completions and start tests (R63, R73, R74) -/

/-- A completion of a group none of whose SEALED entries remain keeps the laws, with the final seal or the end of a
STOPPING group (R58, R74). -/
theorem finishDrain_keeps {w : Fin 4 → Prop} {g : Fin 4} {s : State} (hq : hasSealedEntry s.queue g = false) :
    Keeps w s (finishDrain g s) := by
  intro hs
  have hzero := hasSealedEntry_false hs hq
  have hcg : (completeCore g s).group g = (s.group g).onCompletion := by simp [State.group]
  obtain ⟨c1, c2, c3⟩ := completeStopping_spec g (completeCore g s)
  rw [hcg] at c1 c2 c3
  unfold finishDrain
  by_cases hst : (s.group g).state = .stopping
  · rcases Nat.eq_zero_or_pos (s.group g).openCount with ho | ho
    · rw [c3 hst ho]
      have hc : Closes g s (reachDisabled g (completeCore g s)) :=
        .of_reachDisabled (f := GroupRec.onCompletion) (by simp [State.staging, hst]) ho hzero
          (fun _ => ⟨rfl, rfl, rfl⟩) rfl rfl rfl rfl rfl rfl
      exact ⟨hc.law hs ((hs.mode.reachDisabled (u := completeCore g s) rfl hc).weaken fun k (hk : w k) => Or.inl hk), hc.kept⟩
    · rw [c2 hst ho]
      exact (GroupStep.of_seal (t := sealCore g (completeCore g s)) (f := GroupRec.onCompletion) hs hzero
        (by simp [hst]) (fun _ => ⟨rfl, rfl, rfl⟩) (by simp) rfl rfl rfl rfl rfl).keeps hs
  · rw [c1 hst]
    exact (GroupStep.of_record (t := completeCore g s) (f := GroupRec.onCompletion) hs rfl rfl rfl rfl rfl rfl (.refl _)
      rfl rfl (fun _ => hzero)
      ⟨fun hd => ⟨((hs.shape g).1 hd).1, hzero, rfl⟩, fun h => absurd h hst⟩ id).keeps hs

/-- The start test, with the completions it brings, keeps the laws (R63, R75). -/
theorem testStart_keeps (w : Fin 4 → Prop) (s : State) : Keeps w s (testStart s) := by
  obtain ⟨u, hu⟩ := startTest_total s
  rw [testStart_of hu]
  induction hu with
  | rests => exact .refl w _
  | starts => exact keeps_quiet rfl rfl rfl rfl rfl rfl
  | @completes s u g rest _ _ _ hq _ _ ih =>
    rw [← finishDrain_eq] at ih
    have hb : Keeps w s (startedAt g rest s) := keeps_quiet rfl rfl rfl rfl rfl rfl
    exact (hb.trans (finishDrain_keeps (s := startedAt g rest s) hq)).trans ih

theorem sealGroup_keeps {w : Fin 4 → Prop} {g : Fin 4} {s : State} (hno : (s.group g).hasSealed = false)
    (hon : (s.group g).state ≠ .disabled) : Keeps w s (sealGroup g s) :=
  (sealCore_keeps hno hon).trans (testStart_keeps w _)

theorem testCompletion_keeps (w : Fin 4 → Prop) (s : State) : Keeps w s (testCompletion s) := by
  obtain ⟨c1, c2, c3⟩ := testCompletion_spec s
  cases he : s.engine.state with
  | idle => rw [c1 he]; exact .refl w s
  | draining g =>
    cases hd : drainDone g s with
    | false => rw [c2 g he hd]; exact .refl w s
    | true =>
      rw [c3 g he hd]
      simp only [drainDone, Bool.and_eq_true, Bool.not_eq_true'] at hd
      exact (finishDrain_keeps hd.1).trans (testStart_keeps w _)

/-- The record of a group whose boundary event came while a sealed epoch still waited (R51). -/
def GroupRec.countOverrun (x : GroupRec) : GroupRec := { x with overruns := min (x.overruns + 1) 255 }

/-- A boundary event keeps the laws (R50 to R52). -/
theorem boundary_keeps (w : Fin 4 → Prop) (g : Fin 4) (s : State) : Keeps w s (boundary g s) := by
  obtain ⟨u, hu⟩ := boundaryGives_total g s
  obtain ⟨b1, b2, b3, b4⟩ := boundary_spec g s
  cases hu with
  | ignored hr => rw [b1 hr]; exact .refl w s
  | overrun hr hh =>
    rw [b2 hr hh]
    exact fun hs => (GroupStep.of_record (t := (s.modGroup g GroupRec.countOverrun).cause (.overrun g)) hs
      rfl rfl rfl rfl rfl rfl (.refl _) rfl rfl (hs.counts g).2.2 (hs.shape g) id).keeps hs
  | passes hr hh ho he => rw [b3 hr hh ho he]; exact .refl w s
  | seals hr hh ho =>
    rw [b4 hr hh ho]
    exact sealGroup_keeps hh (by simp [hr])

/-! ## DISABLE_GROUP (R18, R57) -/

/-- The seal of a group and the change of its state to STOPPING can be taken in either order. -/
theorem sealCore_stop (g : Fin 4) (s : State) :
    sealCore g (convertHold g (s.inState g .stopping)) =
      convertHold g ((sealCore g s).inState g .stopping) := by
  have hheld : (s.inState g .stopping).held =
      ((sealCore g s).inState g .stopping).held := rfl
  have hswap : sealCore g (s.inState g .stopping) =
      (sealCore g s).inState g .stopping := by
    simp only [sealCore, State.modGroup, Four.modify_modify]
    rfl
  unfold convertHold
  rw [← hheld, ← hswap]
  cases (s.inState g .stopping).held with
  | none => rfl
  | some h =>
    by_cases hg : h.cls.group = g
    · simp only [if_pos hg]; rfl
    · simp only [if_neg hg]

/-- DISABLE_GROUP winds its group down and keeps the laws (R18, R57, R63). -/
theorem disableGroup_keeps {w : Fin 4 → Prop} {g : Fin 4} {s : State} (hs : StagingLaw w s) (hon : s.staging g) :
    StagingLaw (fun k => w k ∨ k = g) (disableGroup g s) ∧ Kept s (disableGroup g s) := by
  have stop : ∀ {u : State}, StagingLaw w u → u.staging g → (u.group g).hasSealed = true →
      StagingLaw (fun k => w k ∨ k = g) (convertHold g (u.inState g .stopping)) ∧
        Kept u (convertHold g (u.inState g .stopping)) := by
    intro u hu hon hsealed
    have hc := stop_closes hon hsealed
    obtain ⟨p, hp⟩ := convertHold_eq g (u.inState g .stopping)
    refine ⟨hc.law hu (hu.mode.stop (by rw [hp]; rfl) hc ?_), hc.kept⟩
    rw [hp]; simp [State.group]
  unfold disableGroup
  split
  next h =>
    obtain ⟨ho, hz, hn⟩ := h
    have hc : Closes g s (reachDisabled g s) :=
      .of_reachDisabled (f := id) hon ho hz (fun _ => ⟨rfl, rfl, rfl⟩) hn (by simp [Four.modify]) rfl rfl rfl rfl
    exact ⟨hc.law hs (hs.mode.reachDisabled rfl hc), hc.kept⟩
  next h =>
    dsimp only
    split
    next h' =>
      obtain ⟨hn, ho⟩ := h'
      obtain ⟨h1, k1⟩ := sealCore_keeps hn hon hs
      obtain ⟨h2, k2⟩ := stop h1 (by simpa [State.staging, State.group, GroupRec.onSeal] using hon)
        (by simp [State.group, GroupRec.onSeal])
      obtain ⟨h3, k3⟩ := testStart_keeps _ _ h2
      rw [← sealCore_stop] at h3 k2 k3
      exact ⟨h3, (k1.trans k2).trans k3⟩
    next h' =>
      refine stop hs hon ?_
      cases hn : (s.group g).hasSealed with
      | true => rfl
      | false =>
        have hz := (hs.counts g).2.2 hn
        exact absurd ⟨by_contra fun ho => h' ⟨hn, Nat.pos_of_ne_zero ho⟩, hz, hn⟩ h

end Sys2Proof.Machine

namespace Sys2Proof.Machine

/-! ## The class of a request and where its words lie (R2, R8) -/

/-- What the class of a request says of its words, outside BYPASS. -/
def ClassHolds (ws : Eight Window) (r : Request) : ReqClass → Prop
  | .bypassed => False
  | .outside => ∀ a ∈ requestWords r, windowOf ws a = none
  | .staged n g _ _ => (ws.get n).kind = .staged ∧ (ws.get n).group = g ∧
      ∀ a ∈ requestWords r, windowOf ws a = some n
  | .locked n => (ws.get n).kind = .locked ∧ ∀ a ∈ requestWords r, windowOf ws a = some n

theorem spanClass_holds {ws : Eight Window} {r : Request} {cls : ReqClass}
    (h : spanClass ws (requestWords r) = some cls) : ClassHolds ws r cls := by
  unfold spanClass at h
  split at h
  next hw => cases h; simp [ClassHolds, hw]
  next a rest hw =>
    split at h
    next ha =>
      split at h
      next hall =>
        cases h
        simp only [List.all_eq_true, beq_iff_eq] at hall
        simpa [ClassHolds, hw, ha] using hall
      next => cases h
    next n ha =>
      split at h
      next hall =>
        cases h
        simp only [List.all_eq_true, beq_iff_eq] at hall
        have hin : ∀ b ∈ requestWords r, windowOf ws b = some n := by simpa [hw, ha] using hall
        rcases windowClass_cases ws n with ⟨hk, hc⟩ | ⟨hk, hc⟩ <;> rw [hc]
        · exact ⟨hk, hin⟩
        · exact ⟨hk, rfl, hin⟩
      next => cases h

theorem classify_holds {mode : DeviceMode} {ws : Eight Window} {r : Request} {cls : ReqClass}
    (h : classify mode ws r = .placed cls) : (cls = .bypassed ∧ mode = .bypass) ∨ ClassHolds ws r cls := by
  have span : (match spanClass ws (requestWords r) with
      | none => Verdict.refused .span
      | some c => .placed c) = .placed cls → ClassHolds ws r cls := by
    intro h
    split at h
    next => cases h
    next c hc => cases h; exact spanClass_holds hc
  unfold classify at h
  split at h
  next => cases h
  next =>
    split at h
    next => cases h
    next =>
      cases mode with
      | bypass => cases h; exact .inl ⟨rfl, rfl⟩
      | active => exact .inr (span h)
      | leaving => exact .inr (span h)

/-- A request inside a STAGED window has its words in the windows of that window's group. -/
theorem ClassHolds.inside {s : State} (hw : WindowsApart s) {r : Request} {n : Fin 8} {g : Fin 4} {f : Bool}
    {p : FullPolicy} (h : ClassHolds s.windows r (.staged n g f p)) :
    ∀ a ∈ requestWords r, inWindowOf s g a = true := by
  obtain ⟨hk, hg, hin⟩ := h
  exact fun a ha => (inWindowOf_iff hw g a).mpr ⟨n, hin a ha, hk, hg⟩

/-- A request has no word in the STAGED windows of a group that its class does not name. -/
theorem ClassHolds.outside {s : State} (hw : WindowsApart s) {r : Request} {cls : ReqClass}
    (h : ClassHolds s.windows r cls) {g : Fin 4} (hg : ∀ n f p, cls ≠ .staged n g f p) :
    ∀ a ∈ requestWords r, inWindowOf s g a = false := by
  intro a ha
  rw [Bool.eq_false_iff]
  intro hin
  obtain ⟨m, hm, hk, hmg⟩ := (inWindowOf_iff hw g a).mp hin
  cases cls with
  | bypassed => exact h
  | outside => rw [h a ha] at hm; cases hm
  | locked n => rw [h.2 a ha] at hm; cases hm; rw [h.1] at hk; cases hk
  | staged n k f p =>
    obtain ⟨-, hg', hin⟩ := h
    rw [hin a ha] at hm
    cases hm
    exact hg m f p (by rw [← hmg, hg'])

/-! ## Admission (R24 to R31) -/

/-- An entry has a non-empty mask, and 0x00 in the lanes outside it (R20). -/
def Entry.Sound (e : Entry) : Prop := e.mask ≠ LaneMask.none ∧ e.data = mergeLanes e.mask e.data Word.zero

/-- One lane of a coalesced entry: a lane outside the united mask was 0x00 and stays so. -/
theorem lane_coalesce (m b : Bool) (old new : Byte) (h : old = if m then old else 0) :
    (if b then new else old) = if m || b then (if b then new else old) else 0 := by
  cases b <;> cases m <;> simp_all

theorem Entry.Sound.coalesce {e : Entry} (h : e.Sound) (b : Beat) : (e.coalesce b).Sound := by
  obtain ⟨hm, hd⟩ := h
  rw [Word.mk.injEq] at hd
  obtain ⟨d0, d1, d2, d3⟩ := hd
  refine ⟨fun hz => hm ?_, ?_⟩
  · simp only [Entry.coalesce, uniteLanes, LaneMask.none, LaneMask.mk.injEq, Bool.or_eq_false_iff] at hz
    obtain ⟨⟨z0, -⟩, ⟨z1, -⟩, ⟨z2, -⟩, z3, -⟩ := hz
    exact (LaneMask.mk.injEq ..).mpr ⟨z0, z1, z2, z3⟩
  · exact (Word.mk.injEq ..).mpr ⟨lane_coalesce _ _ _ _ d0, lane_coalesce _ _ _ _ d1, lane_coalesce _ _ _ _ d2,
      lane_coalesce _ _ _ _ d3⟩

theorem newEntry_sound (g : Fin 4) (a : Addr) {b : Beat} (h : b.mask ≠ LaneMask.none) : (newEntry g a b).Sound := by
  refine ⟨h, ?_⟩
  simp only [newEntry, mergeLanes, Word.mk.injEq]
  refine ⟨?_, ?_, ?_, ?_⟩ <;> split <;> rfl

theorem touchedBy_sound {e : Entry} (h : e.Sound) (g : Fin 4) (ws : List (Addr × Beat)) : (touchedBy g ws e).Sound := by
  unfold touchedBy
  split
  · exact h.coalesce _
  · exact h

/-- An entry after an admission is an old one, touched or not, or a new one for a word of the write (R26). -/
theorem mem_admitWords {g : Fin 4} {r : Request} {q : List Entry} {e : Entry} (h : e ∈ admitWords g r q) :
    (∃ x ∈ q, e = touchedBy g (requestBeats r) x) ∨
    ∃ w ∈ requestBeats r, w.2.mask ≠ LaneMask.none ∧ e = newEntry g w.1 w.2 := by
  rw [admitWords_eq] at h
  rcases List.mem_append.mp h with h | h
  · obtain ⟨x, hx, rfl⟩ := List.mem_map.mp h
    exact .inl ⟨x, hx, rfl⟩
  · obtain ⟨w, hw, rfl⟩ := List.mem_map.mp h
    obtain ⟨hw, hc⟩ := List.mem_filter.mp hw
    simp only [countsAsNeed, Bool.and_eq_true, bne_iff_ne] at hc
    exact .inr ⟨w, hw, hc.1, rfl⟩

theorem mem_requestBeats {r : Request} {w : Addr × Beat} (h : w ∈ requestBeats r) : w.1 ∈ requestWords r := by
  obtain ⟨a, b⟩ := w
  exact (List.of_mem_zip h).1

theorem admitWrite_entriesPlaced {g : Fin 4} {r : Request} {s : State} (h : EntriesPlaced s)
    (hin : ∀ a ∈ requestWords r, inWindowOf s g a = true) : EntriesPlaced (admitWrite g r s) := by
  intro e he
  rw [inWindowOf_congr (admitWrite_windows g r s)]
  rcases mem_admitWords he with ⟨x, hx, rfl⟩ | ⟨w, hw, -, rfl⟩
  · obtain ⟨hg, -, ha, -⟩ := touchedBy_key g (requestBeats r) x
    rw [hg, ha]
    exact h x hx
  · exact hin w.1 (mem_requestBeats hw)

theorem admitWrite_group (g k : Fin 4) (r : Request) (s : State) : (admitWrite g r s).group k =
    if k = g then { s.group g with openCount := (s.group g).openCount + need s.queue g r } else s.group k := by
  simp [State.group, admitWrite_groups]

/-- The admission of a write that fits into a group that is not DISABLED keeps the laws (R25, R26). -/
theorem admitWrite_keeps {w : Fin 4 → Prop} {g : Fin 4} {r : Request} {s : State} (hfit : admissible s g r = true)
    (hon : s.staging g) (hin : TableLaw s → ∀ a ∈ requestWords r, inWindowOf s g a = true) :
    Keeps w s (admitWrite g r s) := by
  intro hs
  have hst : ∀ k, ((admitWrite g r s).group k).state = (s.group k).state := by
    intro k; rw [admitWrite_group]; split <;> simp_all
  have hstaging : (admitWrite g r s).staging = s.staging := by funext k; simp [State.staging, hst]
  obtain ⟨hquota, hroom⟩ := (admissible_iff s g r).mp hfit
  refine ⟨⟨fun k => ?_, hs.order, fun x hx => ?_, fun k => ?_, ?_⟩, ⟨fun hq => ⟨⟨fun k => ?_, ?_⟩, fun e he => ?_⟩, id,
    fun ht => ⟨ht.order, ht.apart, admitWrite_entriesPlaced ht.entries (hin ht), fun p => ?_⟩⟩⟩
  · obtain ⟨c1, c2, c3⟩ := hs.counts k
    rw [admitWrite_group, admitWrite_queue, entryCount_admitWords, entryCount_admitWords]
    by_cases hk : k = g
    · subst hk; simp [c1, c2]; exact fun h => c2 ▸ c3 h
    · simp [hk, c1, c2]; exact fun h => c2 ▸ c3 h
  · rw [hst]; exact hs.held x hx
  · rw [admitWrite_group]
    split
    next hk =>
      subst hk
      exact ⟨fun hd => absurd hd hon, (hs.shape k).2⟩
    next => exact hs.shape k
  · simpa only [WindingShape, hst, admitWrite_mode] using hs.mode
  · rw [admitWrite_group]
    split
    next hk =>
      subst hk
      obtain ⟨q1, q2, -⟩ := hq.1.1 k
      exact ⟨q1, q2, by simp only; omega⟩
    next => exact hq.1.1 k
  · rw [admitWrite_queue, admitWords_length]
    simp only [Config.queueSize]
    omega
  · rcases mem_admitWords he with ⟨x, hx, rfl⟩ | ⟨w, -, hm, rfl⟩
    · exact touchedBy_sound (hq.2 x hx) _ _
    · exact newEntry_sound _ _ hm
  · rw [hstaging]
    exact (ht.heads p).mono rfl (by cases p <;> rfl) fun _ => id

/-- The offer of a host write to the admission of a group that admits keeps the laws, whatever comes of it (R25, R27,
R29, R30). -/
theorem offerAdmission_keeps {w : Fin 4 → Prop} {cls : ReqClass} {policy : FullPolicy} {s : State} {sl : Slot}
    (hsl : s.hp.head? = some sl) (hk : sl.req.kind = .write) (hadm : holdFits .admission (s.group cls.group).state = true)
    (hin : TableLaw s → ∀ a ∈ requestWords sl.req, inWindowOf s cls.group a = true) :
    Keeps w s (offerAdmission cls cls.group policy sl.req s) := by
  have hon : s.staging cls.group := by intro hd; rw [hd] at hadm; cases hadm
  unfold offerAdmission offerPhase
  cases hfit : admissible s cls.group sl.req with
  | true =>
    simp only [if_true]
    exact (admitWrite_keeps hfit hon hin).trans
      (setHead_leaves_keeps (p := .hp) (s := admitWrite cls.group sl.req s) hsl (by simp))
  | false =>
    simp only [Bool.false_eq_true, if_false]
    cases policy with
    | refuse => exact setHead_leaves_keeps (p := .hp) hsl (by simp)
    | stall =>
      refine setHead_keeps (p := .hp) hsl (fun _ c cause timer he => ?_) fun ht _ => ⟨hk, hin ht⟩
      obtain ⟨rfl, rfl, -⟩ : cls = c ∧ .admission = cause ∧ _ = timer := by simpa using he
      exact hadm

/-- The retry of a held admission keeps the laws (R31). -/
theorem retryAdmission_keeps (w : Fin 4 → Prop) (s : State) : Keeps w s (retryAdmission s) := by
  intro hs
  obtain ⟨r1, r2, r3⟩ := retryAdmission_spec s
  cases hh : s.held with
  | none => rw [r1 hh]; exact Keeps.refl w s hs
  | some h =>
    by_cases hc : h.cause = .admission
    · cases hfit : admissible s h.cls.group h.req with
      | false => rw [r2 h hh (.inr hfit)]; exact Keeps.refl w s hs
      | true =>
        rw [r3 h hh hc hfit]
        obtain ⟨i, hi⟩ := held_eq_some.mp hh
        have hadm := hs.held h hh
        rw [hc] at hadm
        have hon : s.staging h.cls.group := by intro hd; rw [hd] at hadm; cases hadm
        have hin : TableLaw s → ∀ a ∈ requestWords h.req, inWindowOf s h.cls.group a = true := fun ht =>
          (ht.heads .hp _ hi rfl).2
        exact ((admitWrite_keeps hfit hon hin).trans
          (setHead_leaves_keeps (p := .hp) (s := admitWrite h.cls.group h.req s) hi (by simp))) hs
    · rw [r2 h hh (.inl hc)]; exact Keeps.refl w s hs

/-! ## The hold timer (R30, R32) -/

theorem expireHold_keeps (w : Fin 4 → Prop) (s : State) : Keeps w s (expireHold s) := by
  unfold expireHold
  split
  next h hh =>
    obtain ⟨i, hi⟩ := held_eq_some.mp hh
    split
    · split
      · exact setHead_leaves_keeps (p := .hp) hi (by simp)
      · exact .refl w s
    · exact .refl w s
  next => exact .refl w s

theorem tickHold_keeps (w : Fin 4 → Prop) (s : State) : Keeps w s (tickHold s) := by
  unfold tickHold
  split
  next h hh =>
    obtain ⟨i, hi⟩ := held_eq_some.mp hh
    split
    next n _ =>
      split
      · exact expireHold_keeps w s
      · intro hs
        refine setHead_keeps (p := .hp) (ph := .head h.cls (.held h.cause (some (n - 1)))) hi
          (fun _ c cause timer he => ?_) (fun ht => ht.heads .hp _ hi) hs
        obtain ⟨rfl, rfl, -⟩ : h.cls = c ∧ h.cause = cause ∧ _ = timer := by simpa using he
        exact hs.held h hh
    · exact .refl w s
  next => exact .refl w s

/-! ## HEAD_PROCESSING (R10, R11, R124) -/

/-- What a classified request knows of the windows of the groups that stage: its class is that of a DISABLED group, or
names no group. -/
theorem ClassHolds.clear {s : State} (hw : WindowsApart s) {r : Request} {cls : ReqClass}
    (h : ClassHolds s.windows r cls) (hoff : ∀ n g f p, cls = .staged n g f p → (s.group g).state = .disabled) :
    ClearOf s.staging s r := fun a ha g hg =>
  h.outside hw (fun n f p hc => hg (hoff n g f p hc)) a ha

/-- A forwarded read is answered from staging, or waits for the memory (R86, R87). -/
theorem forward_keeps {w : Fin 4 → Prop} {s : State} {sl : Slot} {cls : ReqClass} {g : Fin 4}
    (hsl : s.hp.head? = some sl) (hk : sl.req.kind = .read) :
    Keeps w s (s.setHead .hp (forwardPhase cls g sl.req s)) := by
  unfold forwardPhase
  split
  · exact setHead_leaves_keeps (p := .hp) hsl (by simp)
  · exact setHead_keeps (p := .hp) hsl (by simp) fun _ => hk

/-- A classified request goes on to the memory: its class names no group, or a DISABLED one, or it is a read. -/
theorem passClass_keeps {w : Fin 4 → Prop} {s : State} {p : PortId} {sl : Slot} {cls : ReqClass}
    (hsl : (s.port p).head? = some sl)
    (hc : (cls = .bypassed ∧ s.mode = .bypass) ∨ ClassHolds s.windows sl.req cls)
    (hoff : ∀ n g f q, cls = .staged n g f q → (s.group g).state = .disabled ∨ sl.req.kind = .read) :
    Keeps w s (s.setHead p (.head cls .passThrough)) := by
  intro hs
  refine setHead_keeps hsl (fun _ c cause timer he => by simp at he) (fun ht hk => ?_) hs
  rcases hc with ⟨-, hb⟩ | hc
  · exact fun a _ g hg => absurd (hs.mode.1 hb g) hg
  · exact hc.clear ht.apart fun n g f q he => (hoff n g f q he).resolve_right (by simp [hk])

/-! The columns of R10 and R11, one equation each. -/

theorem handleHost_disabled {s : State} {n : Fin 8} {g : Fin 4} {fwd : Bool} {policy : FullPolicy} (r : Request)
    (h : (s.group g).state = .disabled) : handleHost (.staged n g fwd policy) r s =
      s.setHead .hp (.head (.staged n g fwd policy) .passThrough) := by
  simp only [handleHost, h]

theorem handleHost_stopping {s : State} {n : Fin 8} {g : Fin 4} {fwd : Bool} {policy : FullPolicy} {r : Request}
    (h : (s.group g).state = .stopping) (hk : r.kind = .write) : handleHost (.staged n g fwd policy) r s =
      s.setHead .hp (.head (.staged n g fwd policy) (.held .disable none)) := by
  simp only [handleHost, h, hk]

theorem handleHost_write {s : State} {n : Fin 8} {g : Fin 4} {fwd : Bool} {policy : FullPolicy} {r : Request}
    (h : (s.group g).state = .running ∨ (s.group g).state = .faulted) (hk : r.kind = .write) :
    handleHost (.staged n g fwd policy) r s = offerAdmission (.staged n g fwd policy) g policy r s := by
  rcases h with h | h <;> simp only [handleHost, h, hk]

theorem handleHost_read {s : State} {n : Fin 8} {g : Fin 4} {fwd : Bool} {policy : FullPolicy} {r : Request}
    (h : (s.group g).state ≠ .disabled) (hk : r.kind = .read) : handleHost (.staged n g fwd policy) r s =
      if fwd then s.setHead .hp (forwardPhase (.staged n g fwd policy) g r s)
      else s.setHead .hp (.head (.staged n g fwd policy) .passThrough) := by
  cases hst : (s.group g).state with
  | disabled => exact absurd hst h
  | _ => simp only [handleHost, hst, hk]

theorem handleConsumer_read {s : State} {r : Request} (cls : ReqClass) (hk : r.kind = .read) :
    handleConsumer cls r s = s.setHead .cp (.head cls .passThrough) := by
  cases cls <;> simp only [handleConsumer, hk]

theorem handleConsumer_locked {s : State} {r : Request} (n : Fin 8) (hk : r.kind = .write) :
    handleConsumer (.locked n) r s = s.setHead .cp (.answered ⟨.locked, []⟩) := by
  simp only [handleConsumer, hk]

theorem handleConsumer_stagedWrite {s : State} {n : Fin 8} {g : Fin 4} {fwd : Bool} {policy : FullPolicy}
    {r : Request} (hk : r.kind = .write) : handleConsumer (.staged n g fwd policy) r s =
      if (s.group g).state = .disabled then s.setHead .cp (.head (.staged n g fwd policy) .passThrough)
      else s.setHead .cp (.answered ⟨.locked, []⟩) := by
  simp only [handleConsumer, hk]

/-- The table of R10 keeps the laws, column by column. -/
theorem handleHost_keeps {w : Fin 4 → Prop} {s : State} {sl : Slot} {cls : ReqClass} (hsl : s.hp.head? = some sl)
    (hc : (cls = .bypassed ∧ s.mode = .bypass) ∨ ClassHolds s.windows sl.req cls) :
    Keeps w s (handleHost cls sl.req s) := by
  have pass : (∀ n g f q, cls = .staged n g f q → (s.group g).state = .disabled ∨ sl.req.kind = .read) →
      Keeps w s (s.setHead .hp (.head cls .passThrough)) := passClass_keeps (p := .hp) hsl hc
  cases cls with
  | bypassed => exact pass (by simp)
  | outside => exact pass (by simp)
  | locked n =>
    cases hk : sl.req.kind with
    | write =>
      simp only [handleHost, hk]
      exact setHead_leaves_keeps (p := .hp) hsl (by simp)
    | read =>
      simp only [handleHost, hk]
      exact pass (by simp)
  | staged n g fwd policy =>
    have hin : TableLaw s → ∀ a ∈ requestWords sl.req, inWindowOf s g a = true := fun ht =>
      (hc.resolve_left (by simp)).inside ht.apart
    have write : (s.group g).state = .running ∨ (s.group g).state = .faulted → sl.req.kind = .write →
        Keeps w s (handleHost (.staged n g fwd policy) sl.req s) := by
      intro hst hk
      rw [handleHost_write hst hk]
      exact offerAdmission_keeps (cls := .staged n g fwd policy) hsl hk
        (by rcases hst with hst | hst <;> simp [ReqClass.group, hst, holdFits]) hin
    by_cases hd : (s.group g).state = .disabled
    · rw [handleHost_disabled _ hd]
      exact pass fun _ _ _ _ he => by cases he; exact .inl hd
    · cases hk : sl.req.kind with
      | read =>
        rw [handleHost_read hd hk]
        split
        · exact forward_keeps hsl hk
        · exact pass fun _ _ _ _ _ => .inr hk
      | write =>
        cases hst : (s.group g).state with
        | disabled => exact absurd hst hd
        | running => exact write (.inl hst) hk
        | faulted => exact write (.inr hst) hk
        | stopping =>
          rw [handleHost_stopping hst hk]
          refine setHead_keeps (p := .hp) hsl (fun _ c cause timer he => ?_) (fun ht _ => ⟨hk, hin ht⟩)
          obtain ⟨rfl, rfl, -⟩ : _ = c ∧ HoldCause.disable = cause ∧ _ = timer := by simpa using he
          simp [ReqClass.group, hst, holdFits]

/-- The table of R11 keeps the laws. -/
theorem handleConsumer_keeps {w : Fin 4 → Prop} {s : State} {sl : Slot} {cls : ReqClass} (hsl : s.cp.head? = some sl)
    (hc : (cls = .bypassed ∧ s.mode = .bypass) ∨ ClassHolds s.windows sl.req cls) :
    Keeps w s (handleConsumer cls sl.req s) := by
  have pass : (∀ n g f q, cls = .staged n g f q → (s.group g).state = .disabled ∨ sl.req.kind = .read) →
      Keeps w s (s.setHead .cp (.head cls .passThrough)) := passClass_keeps (p := .cp) hsl hc
  have leave : Keeps w s (s.setHead .cp (.answered ⟨.locked, []⟩)) := setHead_leaves_keeps (p := .cp) hsl (by simp)
  cases hk : sl.req.kind with
  | read =>
    rw [handleConsumer_read cls hk]
    exact pass fun _ _ _ _ _ => .inr hk
  | write =>
    cases cls with
    | bypassed => exact pass (by simp)
    | outside => exact pass (by simp)
    | locked n => rw [handleConsumer_locked n hk]; exact leave
    | staged n g fwd policy =>
      rw [handleConsumer_stagedWrite hk]
      split
      next hd => exact pass fun _ _ _ _ he => by cases he; exact .inl hd
      next => exact leave

end Sys2Proof.Machine

namespace Sys2Proof.Machine

/-- HEAD_PROCESSING keeps the laws (R124). -/
theorem processHead_keeps (w : Fin 4 → Prop) (p : PortId) (s : State) : Keeps w s (processHead p s) := by
  unfold processHead
  split
  next sl hsl =>
    split
    next =>
      have hseen : Keeps w s (observe (PortId.requester p) sl.req.kind (monitoredWords sl.req) s) :=
        keeps_quiet (by simp) (by simp) (by simp) (by simp) (by simp) (by simp)
      refine hseen.trans ?_
      generalize hu : observe (PortId.requester p) sl.req.kind (monitoredWords sl.req) s = u
      have hsl' : (u.port p).head? = some sl := by rw [← hu]; simpa using hsl
      unfold examine
      split
      · exact setHead_leaves_keeps hsl' (by simp)
      next cls hcls =>
        cases p with
        | hp => exact handleHost_keeps hsl' (classify_holds hcls)
        | cp => exact handleConsumer_keeps hsl' (classify_holds hcls)
    all_goals exact .refl w s
  next => exact .refl w s

/-! ## Grants, answers and deliveries (R123, R131, R132) -/

/-- A change of entries that leaves their words and roles, beside what does not touch the staging path. -/
theorem keeps_of_marks {w : Fin 4 → Prop} {s t : State} {f : Entry → Entry}
    (hf : ∀ e, SameWord (f e) e ∧ (f e).role = e.role) (hq : t.queue = s.queue.map f) (hm : t.mode = s.mode)
    (hw : t.windows = s.windows) (hg : t.groups = s.groups) (hh : t.hp.slots = s.hp.slots)
    (hc : t.cp.slots = s.cp.slots) : Keeps w s t := by
  intro hs
  have hcount : ∀ k role, entryCount t.queue k role = entryCount s.queue k role := fun k role => by
    rw [hq, entryCount_map (fun e => (hf e).1.1) (fun e => (hf e).2)]
  have hgr : ∀ k, t.group k = s.group k := State.group_congr hg
  have step : GroupStep 0 s t :=
    { mode := hm, windows := hw, hp := hh, cp := hc
      others := fun k _ => hgr k
      steady := by rw [hgr]; exact .refl _
      words := fun e he => by
        obtain ⟨x, hx, rfl⟩ := List.mem_map.mp (hq ▸ he)
        exact ⟨x, hx, (hf x).1⟩
      length := by rw [hq, List.length_map]
      otherCounts := fun k _ role => hcount k role
      counts := by rw [hgr, hcount, hcount]; exact hs.counts 0
      shape := by rw [hgr]; exact hs.shape 0
      quota := by rw [hgr]; exact id }
  exact step.keeps hs

theorem memoryHead_head {p : Port} {sl : Slot} {f : Bool} (h : p.memoryHead = some (sl, f)) : p.head? = some sl := by
  unfold Port.memoryHead at h
  split at h
  next x hx =>
    split at h <;> cases h
    · exact hx
    · exact hx
  next => cases h

theorem grantPort_keeps (w : Fin 4 → Prop) {p : PortId} {sl : Slot} {s : State} (f : Bool)
    (h : (s.port p).memoryHead = some (sl, f)) : Keeps w s (grantPort p sl f s) := by
  have placed : ∀ r : IssueRec, Keeps w s ({ s with pointer := PortId.requester p }.placeRecord r) := fun _ =>
    keeps_quiet rfl rfl rfl rfl rfl rfl
  refine (placed _).trans (setHead_leaves_keeps (sl := sl) ?_ (by simp))
  have hh := memoryHead_head h
  cases p <;> exact hh

theorem grantEngine_keeps (w : Fin 4 → Prop) (e : Entry) (s : State) : Keeps w s (grantEngine e s) := by
  unfold grantEngine
  refine keeps_of_marks (f := Entry.markIssued e) (fun x => ?_) (by simp) (by simp) (by simp) (by simp) (by simp) (by simp)
  unfold Entry.markIssued
  split <;> exact ⟨⟨rfl, rfl, rfl, rfl⟩, rfl⟩

theorem grant_keeps (w : Fin 4 → Prop) (s : State) : Keeps w s (grant s) := by
  unfold grant
  split
  · exact .refl w s
  · split
    next sl f h => exact grantPort_keeps w (p := .hp) f h
    next => exact .refl w s
  · split
    next sl f h => exact grantPort_keeps w (p := .cp) f h
    next => exact .refl w s
  · split
    next e _ => exact grantEngine_keeps w e s
    next => exact .refl w s

/-- A SEALED entry that leaves the queue with its count keeps the laws (R40). -/
theorem removeSealed_keeps {w : Fin 4 → Prop} {g : Fin 4} {a : Addr} {s : State} {e : Entry}
    (h : s.queue.find? (Entry.at g .sealed a) = some e) : Keeps w s (removeSealed g a s) := by
  intro hs
  have hgg : (removeSealed g a s).group g = { s.group g with sealedCount := (s.group g).sealedCount - 1 } := by
    simp [State.group]
  obtain ⟨c1, c2, c3⟩ := hs.counts g
  have step : GroupStep g s (removeSealed g a s) :=
    { mode := rfl, windows := rfl, hp := rfl, cp := rfl
      others := fun k hk => by simp [State.group, hk]
      steady := by rw [hgg]; exact .refl _
      words := fun x hx => ⟨x, List.mem_of_mem_eraseP hx, rfl, rfl, rfl, rfl⟩
      length := List.length_eraseP_le
      otherCounts := fun k hk role => by rw [removeSealed_queue, entryCount_eraseP h]; simp [hk]
      counts := by
        rw [hgg, removeSealed_queue, entryCount_eraseP h, entryCount_eraseP h]
        refine ⟨by simpa using c1, by simp [c2], fun hn => ?_⟩
        have := c3 hn
        simp only
        omega
      shape := by
        rw [hgg]
        obtain ⟨s1, s2⟩ := hs.shape g
        exact ⟨fun hd => ⟨(s1 hd).1, by have := (s1 hd).2.1; simp only; omega, (s1 hd).2.2⟩, s2⟩
      quota := by
        rw [hgg]
        rintro ⟨q1, q2, q3⟩
        exact ⟨q1, q2, by simp only; omega⟩ }
  exact step.keeps hs

/-- A drop keeps the laws: a RUNNING group becomes FAULTED (R71, R72). -/
theorem dropSealed_keeps {w : Fin 4 → Prop} {g : Fin 4} {a : Addr} {s : State} {e : Entry}
    (h : s.queue.find? (Entry.at g .sealed a) = some e) : Keeps w s (dropSealed g a s) := by
  refine (removeSealed_keeps h).trans fun hs => ?_
  unfold dropSealed
  generalize removeSealed g a s = u at hs ⊢
  have hst : ((u.group g).onDrop a).state = if (u.group g).state = .running then .faulted else (u.group g).state := rfl
  have hsteady : SteadyState (u.group g).state ((u.group g).onDrop a).state := by
    rw [hst]; unfold SteadyState; cases (u.group g).state <;> simp
  refine (GroupStep.of_record (t := (u.modGroup g (GroupRec.onDrop a)).cause (.fault g)) (f := GroupRec.onDrop a) hs
    rfl rfl rfl rfl rfl rfl hsteady rfl rfl (hs.counts g).2.2 ?_ id).keeps hs
  obtain ⟨s1, s2⟩ := hs.shape g
  exact ⟨fun hd => s1 (hsteady.1.mpr hd), fun hd => s2 (hsteady.2.mpr hd)⟩

theorem reissue_keeps (w : Fin 4 → Prop) (g : Fin 4) (a : Addr) (s : State) : Keeps w s (reissue g a s) := by
  refine keeps_of_marks (f := Entry.markReissued g a) (fun x => ?_) rfl rfl rfl rfl rfl rfl
  unfold Entry.markReissued
  split <;> exact ⟨⟨rfl, rfl, rfl, rfl⟩, rfl⟩

/-- The answer to a commit write keeps the laws (R69 to R71). -/
theorem commitAnswer_keeps (w : Fin 4 → Prop) (x : EntryRef) (ans : AnswerStatus) (s : State) :
    Keeps w s (commitAnswer x ans s) := by
  unfold commitAnswer
  split
  next => exact .refl w s
  next e he =>
    split
    · exact ((removeSealed_keeps he).trans (retryAdmission_keeps w _)).trans (testCompletion_keeps w _)
    · exact ((dropSealed_keeps he).trans (retryAdmission_keeps w _)).trans (testCompletion_keeps w _)
    · exact reissue_keeps w _ _ s
    · exact .refl w s

theorem answerPort_keeps (w : Fin 4 → Prop) (p : PortId) (r : IssueRec) (ans : AnswerStatus) (data : List Word)
    (s : State) : Keeps w s (answerPort p r ans data s) := by
  unfold answerPort
  split
  · exact .refl w s
  · exact setPort_keeps (PortFollows.of_answer _ _ _)

/-- MEMORY_ANSWER keeps the laws (R132). -/
theorem takeAnswer_keeps (w : Fin 4 → Prop) (ans : AnswerStatus) (data : List Word) (s : State) :
    Keeps w s (takeAnswer ans data s) := by
  unfold takeAnswer
  split
  · exact .refl w s
  next r rest _ =>
    have hd : Keeps w s (departRecord r rest s) := keeps_quiet rfl rfl rfl rfl rfl rfl
    refine hd.trans ?_
    unfold routeAnswer
    split
    · exact .refl w _
    · split
      · exact answerPort_keeps w .hp r ans data _
      · exact answerPort_keeps w .cp r ans data _
      · split
        · exact commitAnswer_keeps w _ ans _
        · exact .refl w _

theorem causeOf_keeps (w : Fin 4 → Prop) (c : RespCode) (s : State) : Keeps w s (causeOf c s) := by
  unfold causeOf
  split
  · exact .refl w s
  · exact keeps_quiet rfl rfl rfl rfl rfl rfl

/-- RESPONSE_DELIVERY keeps the laws (R123, R126). -/
theorem deliver_keeps (w : Fin 4 → Prop) (p : PortId) (s : State) : Keeps w s (deliver p s) := by
  unfold deliver
  split
  · exact .refl w s
  next sl rest hs =>
    split
    next r hph =>
      refine Keeps.trans (setPort_keeps ?_) (causeOf_keeps w _ _)
      have hd : PortFollows (s.port p) { s.port p with slots := rest, delivered := some r } :=
        .of_delivered hs (by simp [Slot.active, hph])
      exact hd.trans (acceptOffered_follows _ _)
    all_goals exact .refl w s

/-- REQUEST_ACCEPT keeps the laws (R123). -/
theorem arrive_keeps (w : Fin 4 → Prop) (p : PortId) (r : Request) (s : State) : Keeps w s (arrive p r s) := by
  unfold arrive
  split
  · exact setPort_keeps (.of_slots rfl)
  · exact setPort_keeps (acceptOffered_follows _ _)

/-! ## Resets (R139, R182, R183) -/

theorem reset_law (w : Fin 4 → Prop) : StagingLaw w State.reset := by
  have hg : ∀ g, State.reset.group g = GroupRec.reset := by intro g; fin_cases g <;> rfl
  refine ⟨fun g => ?_, rfl, fun h hh => (by cases hh), fun g => ?_, fun _ g => (by rw [hg]; rfl), fun h => (by cases h)⟩
  · rw [hg]; exact ⟨rfl, rfl, fun _ => rfl⟩
  · rw [hg]; exact ⟨fun _ => ⟨rfl, rfl, rfl⟩, fun h => (by cases h)⟩

theorem reset_quota : QuotaLaw State.reset := by
  have hg : ∀ g, State.reset.group g = GroupRec.reset := by intro g; fin_cases g <;> rfl
  refine ⟨⟨fun g => ?_, Nat.zero_le _⟩, fun e he => (by cases he)⟩
  rw [hg]
  decide

theorem reset_apart : WindowsApart State.reset := by
  have hw : ∀ n, State.reset.windows.get n = Window.reset := by intro n; fin_cases n <;> rfl
  refine ⟨fun n => ?_, fun i j _ hi => ?_⟩
  · rw [hw]; decide
  · rw [hw] at hi; cases hi

theorem reset_table : TableLaw State.reset :=
  ⟨rfl, reset_apart, fun e he => (by cases he), fun p sl hsl => by cases p <;> cases hsl⟩

/-- POWER_ON and RSTN_ASSERT keep the laws: the part is at its reset values (R139, R182). -/
theorem hardReset_keeps (w : Fin 4 → Prop) (s : State) : Keeps w s (hardReset s) := by
  intro _
  have hq : Keeps w State.reset (hardReset s) := keeps_quiet rfl rfl rfl rfl rfl rfl
  obtain ⟨hl, k⟩ := hq (reset_law w)
  exact ⟨hl, fun _ => k.quota reset_quota, fun _ => k.apart reset_apart, fun _ => k.table reset_table⟩

theorem releaseReset_keeps (w : Fin 4 → Prop) (s : State) : Keeps w s (releaseReset s) := by
  unfold releaseReset
  split
  · refine keeps_of_follows rfl rfl rfl rfl fun p => ?_
    cases p
    · exact acceptOffered_follows _ _
    · exact acceptOffered_follows _ _
  · exact .refl w s

/-- A port whose every request is answered has no head, and its heads are in order. -/
theorem softReset_slots (l : List Slot) :
    headsInOrder (l.map Slot.softReset) = true ∧ (l.map Slot.softReset).find? Slot.active = none := by
  have hno : ∀ x ∈ l.map Slot.softReset, x.active = false := by
    intro x hx
    obtain ⟨y, -, rfl⟩ := List.mem_map.mp hx
    rfl
  refine ⟨?_, List.find?_eq_none.mpr fun x hx => by simp [hno x hx]⟩
  have := headsInOrder_skip [] hno
  simpa [headsInOrder] using this

/-- SOFT_RESET keeps the laws (R183). -/
theorem softReset_keeps (w : Fin 4 → Prop) (s : State) : Keeps w s (softReset s) := by
  intro hs
  have hg : ∀ g, (softReset s).group g = GroupRec.fresh (s.group g).cfg := by simp [State.group, softReset]
  have hhead : ∀ p, ((softReset s).port p).head? = none := by
    intro p; cases p
    · exact (softReset_slots s.hp.slots).2
    · exact (softReset_slots s.cp.slots).2
  refine ⟨⟨fun g => ?_, (softReset_slots s.hp.slots).1, fun h hh => ?_, fun g => ?_, fun _ g => (by rw [hg]; rfl),
    fun h => (by cases h)⟩, ⟨fun hq => ⟨⟨fun g => ?_, Nat.zero_le _⟩, fun e he => (by cases he)⟩, id, fun ht =>
    ⟨(softReset_slots s.cp.slots).1, ht.apart, fun e he => (by cases he), fun p sl hsl => ?_⟩⟩⟩
  · rw [hg]; exact ⟨rfl, rfl, fun _ => rfl⟩
  · obtain ⟨i, hi⟩ := held_eq_some.mp hh
    exact absurd ((hhead .hp).symm.trans hi) (by simp)
  · rw [hg]; exact ⟨fun _ => ⟨rfl, rfl, rfl⟩, fun h => (by cases h)⟩
  · rw [hg]
    obtain ⟨q1, q2, -⟩ := hq.1.1 g
    exact ⟨q1, q2, Nat.zero_le _⟩
  · exact absurd ((hhead p).symm.trans hsl) (by simp)

/-! ## Time (R100 to R107, R119, R120) -/

theorem countEvent_keeps (w : Fin 4 → Prop) (t : Fin 4) (s : State) : Keeps w s (countEvent t s) := by
  have hstep : Keeps w s (s.modTimer t Timer.step) := keeps_quiet rfl rfl rfl rfl rfl rfl
  unfold countEvent
  split
  · split
    · exact hstep.trans (boundary_keeps w t _)
    · exact hstep
  · exact .refl w s

theorem tickTimer_keeps (w : Fin 4 → Prop) (t : Fin 4) (s : State) : Keeps w s (tickTimer t s) := by
  have hset : ∀ f : Timer → Timer, Keeps w s (s.modTimer t f) := fun f => keeps_quiet rfl rfl rfl rfl rfl rfl
  unfold tickTimer
  split
  · split
    · exact .refl w s
    · split
      · exact (hset _).trans (countEvent_keeps w t _)
      · exact hset _
  · exact .refl w s

theorem tickSink_keeps (w : Fin 4 → Prop) (s : State) (k : TickSink) : Keeps w s (tickSink s k) := by
  cases k with
  | timer t => exact tickTimer_keeps w t s
  | hold => exact tickHold_keeps w s
  | line g => exact keeps_quiet rfl rfl rfl rfl rfl rfl

theorem foldl_keeps {α : Type} {w : Fin 4 → Prop} {f : State → α → State} (hf : ∀ s a, Keeps w s (f s a)) (l : List α)
    (s : State) : Keeps w s (l.foldl f s) := by
  induction l generalizing s with
  | nil => exact .refl w s
  | cons a l ih => exact (hf s a).trans (ih _)

/-- A service tick keeps the laws, whatever the order of its receivers (R100). -/
theorem serviceTick_keeps (w : Fin 4 → Prop) (order : List TickSink) (s : State) :
    Keeps w s (serviceTick order s) := by
  unfold serviceTick
  split
  · exact .refl w s
  · exact Keeps.trans (t := { s with tick := { s.tick with inForce := s.tick.divisor, count := 0 } })
      (keeps_quiet rfl rfl rfl rfl rfl rfl) (foldl_keeps (tickSink_keeps w) _ _)

theorem refclkEdge_keeps (w : Fin 4 → Prop) (s : State) : Keeps w s (refclkEdge s) := by
  unfold refclkEdge
  split
  · exact .refl w s
  · split
    · exact keeps_quiet rfl rfl rfl rfl rfl rfl
    · exact Keeps.trans (t := { s with freeIndex := s.freeIndex + 1 }) (keeps_quiet rfl rfl rfl rfl rfl rfl)
        (serviceTick_keeps w _ _)

theorem syncSettles_keeps (w : Fin 4 → Prop) (t : Fin 4) (level : Bool) (s : State) :
    Keeps w s (syncSettles t level s) := by
  have acts : ∀ s, Keeps w s (syncActs t level s) := by
    intro s
    have hcount : Keeps w s (if countsSync (s.timer t) level then countEvent t s else s) := by
      split
      · exact countEvent_keeps w t s
      · exact .refl w s
    unfold syncActs
    dsimp only
    split
    · exact hcount.trans (boundary_keeps w t _)
    · exact hcount
  unfold syncSettles
  split
  · exact keeps_quiet rfl rfl rfl rfl rfl rfl
  · split
    · exact keeps_quiet rfl rfl rfl rfl rfl rfl
    · exact Keeps.trans (t := { s with syncLine := s.syncLine.set t level, syncRef := s.syncRef.set t level })
        (keeps_quiet rfl rfl rfl rfl rfl rfl) (acts _)

theorem choldSet_keeps (w : Fin 4 → Prop) (asserted : Bool) (s : State) : Keeps w s (choldSet asserted s) := by
  have hset : Keeps w s { s with chold := asserted } := keeps_quiet rfl rfl rfl rfl rfl rfl
  unfold choldSet
  split
  · exact hset.trans (testStart_keeps w _)
  · exact hset

end Sys2Proof.Machine

namespace Sys2Proof.Machine

/-! ## ENABLE_GROUP (R12, R17) -/

/-- A head placed for the groups of `on` is placed with `g` staging too, when what waits to be passed through is a read
or has no word in the windows of `g`. -/
theorem PhasePlaced.also {on : Fin 4 → Prop} {s : State} {p : PortId} {r : Request} {ph : SlotPhase} {g : Fin 4}
    (h : PhasePlaced on s p r ph)
    (hg : ph.passesThrough = true → r.kind = .write → ∀ a ∈ requestWords r, inWindowOf s g a = false) :
    PhasePlaced (fun k => on k ∨ k = g) s p r ph := by
  cases ph with
  | head cls role =>
    cases role with
    | passThrough =>
      rintro hk a ha k (hon | rfl)
      · exact h hk a ha k hon
      · exact hg rfl hk a ha
    | forwarded => exact h
    | held cause timer => exact h
  | _ => trivial

/-- The re-examination of the Host Port's head keeps the law of the staging path once group `g` admits (R12). -/
theorem reexamineHost_keeps (w : Fin 4 → Prop) {g : Fin 4} {s : State}
    (hadm : holdFits .admission (s.group g).state = true) : Keeps w s (reexamineHost g s) := by
  unfold reexamineHost
  split
  next sl hsl =>
    split
    · split
      · exact setHead_leaves_keeps (p := .hp) hsl (by simp)
      next n k fwd policy hcls =>
        split
        next hk =>
          subst hk
          have hc := spanClass_holds hcls
          split
          next hw =>
            exact offerAdmission_keeps (cls := .staged n k fwd policy) hsl hw hadm fun ht => hc.inside ht.apart
          next hr =>
            split
            · exact forward_keeps hsl hr
            · exact .refl w s
        · exact .refl w s
      all_goals exact .refl w s
    all_goals exact .refl w s
  next => exact .refl w s

/-- After the re-examination every staged word lies in its window still, and the Host Port's head is placed with group
`g` staging too (R12). -/
theorem reexamineHost_placed {on : Fin 4 → Prop} {g : Fin 4} {s : State} (ho : headsInOrder s.hp.slots = true)
    (hw : WindowsApart s) (he : EntriesPlaced s) (hh : HeadPlaced on s .hp) :
    EntriesPlaced (reexamineHost g s) ∧ HeadPlaced (fun k => on k ∨ k = g) (reexamineHost g s) .hp := by
  have set : ∀ {sl : Slot} {ph : SlotPhase} {t : State}, s.hp.head? = some sl → t.hp = s.hp → t.windows = s.windows →
      EntriesPlaced t → PhasePlaced (fun k => on k ∨ k = g) s .hp sl.req ph →
      EntriesPlaced (t.setHead .hp ph) ∧ HeadPlaced (fun k => on k ∨ k = g) (t.setHead .hp ph) .hp := by
    intro sl ph t hsl hp hwin ht hph
    refine ⟨ht.of_words rfl fun e he => ⟨e, he, rfl, rfl, rfl, rfl⟩, ?_⟩
    exact headPlaced_setHead (p := .hp) (show t.hp.head? = some sl by rw [hp, hsl]) (show headsInOrder t.hp.slots = true
      by rw [hp, ho]) (hph.mono hwin fun _ => id)
  have stay : (∀ sl, s.hp.head? = some sl → sl.phase.passesThrough = true → sl.req.kind = .write →
      ∀ a ∈ requestWords sl.req, inWindowOf s g a = false) →
      EntriesPlaced s ∧ HeadPlaced (fun k => on k ∨ k = g) s .hp := fun hg =>
    ⟨he, fun sl hsl => (hh sl hsl).also (hg sl hsl)⟩
  have same : ∀ {x y : Slot}, s.hp.head? = some x → s.hp.head? = some y → x = y := fun h1 h2 =>
    Option.some.inj (h1.symm.trans h2)
  unfold reexamineHost
  split
  next sl hsl =>
    split
    next cls hph =>
      split
      · exact set hsl rfl rfl he trivial
      next n k fwd policy hcls =>
        have hc := spanClass_holds hcls
        split
        next hk =>
          subst hk
          split
          next hkind =>
            have hin := hc.inside hw
            unfold offerAdmission offerPhase
            split
            · exact set (t := admitWrite k sl.req s) hsl rfl rfl (admitWrite_entriesPlaced he hin) trivial
            · cases policy with
              | refuse => exact set hsl rfl rfl he trivial
              | stall => exact set hsl rfl rfl he fun _ => ⟨hkind, hin⟩
          next hkind =>
            split
            · unfold forwardPhase
              split
              · exact set hsl rfl rfl he trivial
              · exact set hsl rfl rfl he hkind
            · refine stay fun x hx _ hwr => ?_
              rw [same hx hsl, hkind] at hwr
              cases hwr
        next hk =>
          refine stay fun x hx _ _ => ?_
          rw [same hx hsl]
          exact hc.outside hw fun n' f p he => by cases he; exact hk rfl
      next hcls => exact (spanClass_holds hcls).elim
      next hcls =>
        refine stay fun x hx _ _ => ?_
        rw [same hx hsl]
        exact (spanClass_holds hcls).outside hw (by simp)
      next n hcls =>
        refine stay fun x hx _ _ => ?_
        rw [same hx hsl]
        exact (spanClass_holds hcls).outside hw (by simp)
    all_goals
      next hph =>
        refine stay fun x hx hp => ?_
        rw [same hx hsl, hph] at hp
        cases hp
  next hno => exact stay fun sl hsl => by rw [hno] at hsl; cases hsl

/-- The re-examination of the Consumer Port's head at most answers it. -/
theorem reexamineConsumer_cases (g : Fin 4) (s : State) :
    (reexamineConsumer g s = s ∧ (WindowsApart s → ∀ sl, s.cp.head? = some sl → sl.phase.passesThrough = true →
        sl.req.kind = .write → ∀ a ∈ requestWords sl.req, inWindowOf s g a = false)) ∨
    ∃ sl resp, s.cp.head? = some sl ∧ reexamineConsumer g s = s.setHead .cp (.answered resp) := by
  unfold reexamineConsumer
  split
  next sl hsl =>
    have same : ∀ {x : Slot}, s.cp.head? = some x → x = sl := fun h => Option.some.inj (h.symm.trans hsl)
    split
    next hph hkind =>
      split
      · exact .inr ⟨sl, _, hsl, rfl⟩
      next n k fwd policy hcls =>
        split
        · exact .inr ⟨sl, _, hsl, rfl⟩
        next hk =>
          refine .inl ⟨rfl, fun hw x hx _ _ => ?_⟩
          rw [same hx]
          exact (spanClass_holds hcls).outside hw fun n' f p he => by cases he; exact hk rfl
      next hcls => exact (spanClass_holds hcls).elim
      next hcls =>
        refine .inl ⟨rfl, fun hw x hx _ _ => ?_⟩
        rw [same hx]
        exact (spanClass_holds hcls).outside hw (by simp)
      next n hcls =>
        refine .inl ⟨rfl, fun hw x hx _ _ => ?_⟩
        rw [same hx]
        exact (spanClass_holds hcls).outside hw (by simp)
    next hno =>
      refine .inl ⟨rfl, fun _ x hx hp hk => ?_⟩
      rw [same hx] at hp hk
      cases hph : sl.phase with
      | head cls role => cases role <;> simp_all [SlotPhase.passesThrough]
      | _ => simp [hph, SlotPhase.passesThrough] at hp
  next hno => exact .inl ⟨rfl, fun _ x hx => by rw [hno] at hx; cases hx⟩

theorem reexamineConsumer_keeps (w : Fin 4 → Prop) (g : Fin 4) (s : State) : Keeps w s (reexamineConsumer g s) := by
  rcases reexamineConsumer_cases g s with ⟨h, -⟩ | ⟨sl, resp, hsl, h⟩ <;> rw [h]
  · exact .refl w s
  · exact setHead_leaves_keeps (p := .cp) hsl (by simp)

/-- After the re-examination the Consumer Port's head is placed with group `g` staging too (R12). -/
theorem reexamineConsumer_placed {on : Fin 4 → Prop} {g : Fin 4} {s : State} (ho : headsInOrder s.cp.slots = true)
    (hw : WindowsApart s) (hh : HeadPlaced on s .cp) :
    headsInOrder (reexamineConsumer g s).cp.slots = true ∧
      HeadPlaced (fun k => on k ∨ k = g) (reexamineConsumer g s) .cp := by
  rcases reexamineConsumer_cases g s with ⟨h, hg⟩ | ⟨sl, resp, hsl, h⟩ <;> rw [h]
  · exact ⟨ho, fun sl hsl => (hh sl hsl).also (hg hw sl hsl)⟩
  · exact ⟨headsInOrder_replaceHead _ ho, headPlaced_setHead (p := .cp) hsl ho trivial⟩

/-- What the re-examination of the Host Port leaves. -/
theorem reexamineHost_frame (g : Fin 4) (s : State) : (reexamineHost g s).windows = s.windows ∧
    (reexamineHost g s).cp = s.cp ∧ ∀ k, ((reexamineHost g s).group k).state = (s.group k).state := by
  have admitted : ∀ (r : Request) (k : Fin 4), ((admitWrite g r s).group k).state = (s.group k).state := by
    intro r k; rw [admitWrite_group]; split <;> simp_all
  unfold reexamineHost
  split
  · split
    · split
      · exact ⟨rfl, rfl, fun _ => rfl⟩
      · split
        · split
          · unfold offerAdmission
            split
            · exact ⟨rfl, rfl, admitted _⟩
            · exact ⟨rfl, rfl, fun _ => rfl⟩
          · split <;> exact ⟨rfl, rfl, fun _ => rfl⟩
        · exact ⟨rfl, rfl, fun _ => rfl⟩
      all_goals exact ⟨rfl, rfl, fun _ => rfl⟩
    all_goals exact ⟨rfl, rfl, fun _ => rfl⟩
  · exact ⟨rfl, rfl, fun _ => rfl⟩

/-- A DISABLED group that becomes RUNNING or FAULTED in mode ACTIVE: the law of the staging path, the quotas and the
windows are kept; the heads have yet to be re-examined. -/
theorem enabled_law {w : Fin 4 → Prop} {g : Fin 4} {s : State} (hs : StagingLaw w s) (hm : s.mode = .active)
    (hd : (s.group g).state = .disabled) : StagingLaw w (s.modGroup g GroupRec.enabled) := by
  have hgr : ∀ k, (s.modGroup g GroupRec.enabled).group k = if k = g then (s.group g).enabled else s.group k :=
    fun k => State.group_modGroup g k _ s
  have hst : (s.group g).enabled.state ≠ .disabled ∧ (s.group g).enabled.state ≠ .stopping := by
    unfold GroupRec.enabled; cases (s.group g).fault.valid <;> simp
  refine ⟨fun k => ?_, hs.order, fun h hh => ?_, fun k => ?_, fun hb => ?_, fun hl => ?_⟩
  · rw [hgr]
    split
    next hk => subst hk; exact hs.counts k
    next => exact hs.counts k
  · have hfit := hs.held h hh
    rw [hgr, if_neg]
    · exact hfit
    · rintro hk
      rw [hk, hd] at hfit
      cases hc : h.cause <;> rw [hc] at hfit <;> cases hfit
  · rw [hgr]
    split
    · exact ⟨fun h => absurd h hst.1, fun h => absurd h hst.2⟩
    · exact hs.shape k
  · exact absurd (hm.symm.trans hb) (by simp)
  · exact absurd (hm.symm.trans hl) (by simp)

/-- A group that is enabled admits (R17). -/
theorem enabled_admits (x : GroupRec) : holdFits .admission x.enabled.state = true := by
  unfold GroupRec.enabled
  cases x.fault.valid <;> rfl

/-- ENABLE_GROUP of a DISABLED group, with the re-examination of the waiting heads, keeps the laws (R12, R17). -/
theorem enable_keeps {w : Fin 4 → Prop} {g : Fin 4} {s : State} (hm : s.mode = .active)
    (hd : (s.group g).state = .disabled) :
    Keeps w s (reexamineConsumer g (reexamineHost g (s.modGroup g GroupRec.enabled))) := by
  intro hs
  have hgr : ∀ k, (s.modGroup g GroupRec.enabled).group k = if k = g then (s.group g).enabled else s.group k :=
    fun k => State.group_modGroup g k _ s
  have h1 := enabled_law hs hm hd
  obtain ⟨h2, k2⟩ := reexamineHost_keeps w (g := g) (by rw [hgr, if_pos rfl]; exact enabled_admits _) h1
  obtain ⟨h3, k3⟩ := reexamineConsumer_keeps w g _ h2
  refine ⟨h3, fun hq => k3.quota (k2.quota ⟨⟨fun k => ?_, hq.1.2⟩, hq.2⟩), fun ha => k3.apart (k2.apart ha), fun ht => ?_⟩
  · rw [hgr]
    split
    next hk => subst hk; exact hq.1.1 k
    next => exact hq.1.1 k
  · generalize hu : s.modGroup g GroupRec.enabled = u at *
    have hwin : u.windows = s.windows := by rw [← hu]; rfl
    have hport : ∀ p, u.port p = s.port p := fun p => by rw [← hu]; cases p <;> rfl
    have hhead : ∀ p, HeadPlaced s.staging u p := fun p => (ht.heads p).mono hwin (by rw [hport]) fun _ => id
    obtain ⟨f1, f2, f3⟩ := reexamineHost_frame g u
    have fewer : ∀ t : State, (∀ k, (t.group k).state = (u.group k).state) → ∀ k, t.staging k → s.staging k ∨ k = g := by
      intro t hst k hk
      by_cases hkg : k = g
      · exact .inr hkg
      · unfold State.staging at hk ⊢
        rw [hst, hgr, if_neg hkg] at hk
        exact .inl hk
    obtain ⟨e1, p1⟩ := reexamineHost_placed (g := g) h1.order (ht.apart.congr hwin)
      (ht.entries.of_words hwin fun e he => ⟨e, (by rw [← hu] at he; exact he), rfl, rfl, rfl, rfl⟩) (hhead .hp)
    have hcp : HeadPlaced s.staging (reexamineHost g u) .cp := (hhead .cp).mono f1 (congrArg Port.head? f2) fun _ => id
    have hcpo : headsInOrder (reexamineHost g u).cp.slots = true := by
      rw [f2]; exact (congrArg (fun p : Port => headsInOrder p.slots) (hport .cp)).trans ht.order
    obtain ⟨o2, p2⟩ := reexamineConsumer_placed (g := g) hcpo (k2.apart (ht.apart.congr hwin)) hcp
    rcases reexamineConsumer_cases g (reexamineHost g u) with ⟨h, -⟩ | ⟨sl, resp, hsl, h⟩ <;> rw [h] at o2 p2 ⊢
    · refine ⟨o2, k2.apart (ht.apart.congr hwin), e1, fun p => ?_⟩
      have hon := fewer _ f3
      cases p
      · exact p1.mono rfl rfl hon
      · exact p2.mono rfl rfl hon
    · refine ⟨o2, k2.apart (ht.apart.congr hwin), e1.of_words rfl fun e he => ⟨e, he, rfl, rfl, rfl, rfl⟩, fun p => ?_⟩
      have hon := fewer ((reexamineHost g u).setHead .cp (.answered resp)) f3
      cases p
      · exact p1.mono rfl rfl hon
      · exact p2.mono rfl rfl hon

end Sys2Proof.Machine

namespace Sys2Proof.Machine

/-! ## PUT of WINDOW_n and of GROUP_CFG_g (R3, R4, R14) -/

/-- The window a PUT carries keeps the ranges of R3, step 1. -/
theorem windowOfRaw_inRange {v : WindowRaw} {x : Window} (h : windowOfRaw v = some x) : WindowInRange x := by
  unfold windowOfRaw at h
  split at h
  next => cases h
  next hr =>
    simp only [not_or, not_not, Nat.not_lt] at hr
    obtain ⟨hb, hz, hs, hend⟩ := hr
    split at h
    next =>
      cases h
      have hne : v.size.toNat ≠ 0 := fun h0 => hz (BitVec.eq_of_toNat_eq (by simpa using h0))
      exact ⟨hb, Nat.one_le_iff_ne_zero.mpr hne, hs, hend⟩
    next => cases h

theorem rangesMeet_comm (b1 : Addr) (s1 : Nat) (b2 : Addr) (s2 : Nat) : rangesMeet b1 s1 b2 s2 = rangesMeet b2 s2 b1 s1 :=
  Bool.and_comm _ _

/-- A window that shares no address with another enabled entry leaves the windows apart (R3). -/
theorem windowsApart_set {s : State} {n : Fin 8} {x : Window} (hw : WindowsApart s) (hx : WindowInRange x)
    (ho : overlapsOther s n x = false) : WindowsApart { s with windows := s.windows.set n x } := by
  have hother : ∀ i, i ≠ n → x.enabled = true → (s.windows.get i).enabled = true →
      rangesMeet x.base x.size (s.windows.get i).base (s.windows.get i).size = false := by
    intro i hi hxe hie
    simp only [overlapsOther, hxe, Bool.true_and, List.any_eq_false, mem_eight, forall_true_left, Bool.and_eq_true,
      bne_iff_ne, not_and, Bool.not_eq_true, and_imp] at ho
    exact ho i hi hie
  refine ⟨fun i => ?_, fun i j hij => ?_⟩
  · rw [Eight.get_set]
    split
    · exact hx
    · exact hw.1 i
  · simp only [Eight.get_set]
    by_cases hi : i = n <;> by_cases hj : j = n
    · exact absurd (hi.trans hj.symm) hij
    · simp only [hi, hj, if_true, if_false]; exact hother j hj
    · simp only [hi, hj, if_true, if_false]
      intro h1 h2
      rw [rangesMeet_comm]
      exact hother i hi h2 h1
    · simp only [hi, hj, if_false]; exact hw.2 i j hij

/-- While both sides of a change are free, the windows of the groups that stage cover what they covered (R4). -/
theorem inWindowOf_set {s : State} {n : Fin 8} {x : Window} (hold : sideFree s (s.windows.get n) = true)
    (hnew : sideFree s x = true) {g : Fin 4} (hg : s.staging g) (a : Addr) :
    inWindowOf { s with windows := s.windows.set n x } g a = inWindowOf s g a := by
  have free : ∀ y : Window, sideFree s y = true → (y.covers a && y.kind == .staged && y.group == g) = false := by
    intro y hy
    rw [Bool.eq_false_iff]
    simp only [Bool.and_eq_true, beq_iff_eq, ne_eq, not_and, and_imp]
    intro hc hk hyg
    simp only [sideFree, covers_enabled hc, hk, hyg, Bool.not_true, Bool.false_or, Bool.or_eq_true, beq_iff_eq,
      reduceCtorEq, false_or] at hy
    exact hg hy
  rw [Bool.eq_iff_iff]
  simp only [inWindowOf, List.any_eq_true, mem_eight, true_and, Eight.get_set]
  refine exists_congr fun i => ?_
  by_cases hi : i = n
  · subst hi
    simp [free _ hold, free _ hnew]
  · simp [hi]

/-- A PUT of WINDOW_n keeps the laws (R3, R4). -/
theorem putWindow_keeps (w : Fin 4 → Prop) (n : Fin 8) (v : WindowRaw) (s : State) :
    Keeps w s (putWindow n v s).state := by
  unfold putWindow
  split
  · exact .refl w s
  next x hx =>
    split
    · exact .refl w s
    next hfree =>
      simp only [not_or, Bool.not_eq_false] at hfree
      obtain ⟨hold, hnew⟩ := hfree
      split
      · exact .refl w s
      next ho =>
        intro hs
        have hset : ∀ {g : Fin 4}, s.staging g → ∀ a,
            inWindowOf { s with windows := s.windows.set n x } g a = inWindowOf s g a := fun hg a =>
          inWindowOf_set hold hnew hg a
        have apart := fun hw => windowsApart_set hw (windowOfRaw_inRange hx) (Bool.eq_false_iff.mpr ho)
        refine ⟨⟨hs.counts, hs.order, hs.held, hs.shape, hs.mode⟩, id, apart, fun ht => ?_⟩
        refine ⟨ht.order, apart ht.apart, fun e he => ?_, fun p sl hsl => ?_⟩
        · exact (hset (fun hd => hs.no_entries hd he rfl) e.addr).trans (ht.entries e he)
        · have hsl' : (s.port p).head? = some sl := by cases p <;> exact hsl
          have hph := ht.heads p sl hsl'
          obtain ⟨i, r, ph⟩ := sl
          cases ph with
          | head cls role =>
            cases role with
            | passThrough => exact fun hk a ha g hg => (hset hg a).trans (hph hk a ha g hg)
            | forwarded => exact hph
            | held cause timer =>
              rintro rfl
              have hfit := hs.held ⟨r, cls, cause, timer⟩ (held_eq_some.mpr ⟨i, hsl'⟩)
              have hg : s.staging cls.group := by
                intro hd
                simp only [hd] at hfit
                cases cause <;> cases hfit
              exact ⟨(hph rfl).1, fun a ha => (hset hg a).trans ((hph rfl).2 a ha)⟩
          | _ => trivial

/-- The configuration a PUT carries keeps the range of the *quota* (R14). -/
theorem groupCfgOfRaw_quota {v : GroupCfgRaw} {c : GroupCfg} (h : groupCfgOfRaw v = some c) :
    1 ≤ c.quota ∧ c.quota ≤ 512 := by
  unfold groupCfgOfRaw at h
  split at h
  next => cases h
  next hr =>
    simp only [not_or, Nat.not_lt] at hr
    obtain ⟨hz, hq, -⟩ := hr
    split at h
    next =>
      cases h
      exact ⟨Nat.one_le_iff_ne_zero.mpr fun h0 => hz (BitVec.eq_of_toNat_eq (by simpa using h0)), hq⟩
    next => cases h

/-- A PUT of GROUP_CFG_g keeps the laws: the group it configures is DISABLED and holds no entries (R14, R16). -/
theorem putGroupCfg_keeps (w : Fin 4 → Prop) (g : Fin 4) (v : GroupCfgRaw) (s : State) :
    Keeps w s (putGroupCfg g v s).state := by
  unfold putGroupCfg
  split
  · exact .refl w s
  next c hc =>
    split
    · exact .refl w s
    next hd =>
      split
      · exact .refl w s
      · intro hs
        obtain ⟨ho, hz, -⟩ := (hs.shape g).1 (not_not.mp hd)
        obtain ⟨q1, q2⟩ := groupCfgOfRaw_quota hc
        refine (GroupStep.of_record (t := s.modGroup g (fun x => { x with cfg := c }))
          (f := fun x => { x with cfg := c }) hs rfl rfl rfl rfl rfl rfl (.refl _) rfl rfl
          (hs.counts g).2.2 (hs.shape g) fun _ => ⟨q1, q2, ?_⟩).keeps hs
        simp only
        omega

/-! ## Actions (R175) -/

/-- DISCARD's removal of the OPEN entries keeps the laws (R41). -/
theorem discardOpen_keeps (w : Fin 4 → Prop) (g : Fin 4) (s : State) : Keeps w s (discardOpen g s) := by
  intro hs
  have hgg : (discardOpen g s).group g = { s.group g with openCount := 0 } := by simp [State.group]
  have hc : ∀ k role, entryCount (discardOpen g s).queue k role =
      if k = g ∧ role = .opened then 0 else entryCount s.queue k role := entryCount_discard s.queue g
  obtain ⟨c1, c2, c3⟩ := hs.counts g
  have step : GroupStep g s (discardOpen g s) :=
    { mode := rfl, windows := rfl, hp := rfl, cp := rfl
      others := fun k hk => by simp [State.group, hk]
      steady := by rw [hgg]; exact .refl _
      words := fun x hx => ⟨x, List.mem_of_mem_filter hx, rfl, rfl, rfl, rfl⟩
      length := List.length_filter_le _ _
      otherCounts := fun k hk role => by rw [hc, if_neg fun h => hk h.1]
      counts := by
        rw [hgg, hc, hc]
        exact ⟨by simp, by simpa using c2, c3⟩
      shape := by
        rw [hgg]
        obtain ⟨s1, s2⟩ := hs.shape g
        exact ⟨fun hd => ⟨rfl, (s1 hd).2⟩, s2⟩
      quota := by
        rw [hgg]
        rintro ⟨q1, q2, q3⟩
        exact ⟨q1, q2, by simp only; omega⟩ }
  exact step.keeps hs

theorem clearFault_keeps (w : Fin 4 → Prop) (g : Fin 4) (s : State) :
    Keeps w s (s.modGroup g GroupRec.clearFault) := by
  intro hs
  have hst : (s.group g).clearFault.state = if (s.group g).state = .faulted then .running else (s.group g).state := rfl
  have hsteady : SteadyState (s.group g).state (s.group g).clearFault.state := by
    rw [hst]; unfold SteadyState; cases (s.group g).state <;> simp
  obtain ⟨s1, s2⟩ := hs.shape g
  exact (GroupStep.of_record (t := s.modGroup g GroupRec.clearFault) (f := GroupRec.clearFault) hs rfl rfl rfl rfl rfl rfl
    hsteady rfl rfl (hs.counts g).2.2 ⟨fun hd => s1 (hsteady.1.mpr hd), fun hd => s2 (hsteady.2.mpr hd)⟩ id).keeps hs

/-- One group is wound down by BYPASS: the law holds with it among those that are (R179). -/
theorem windDown_law {w : Fin 4 → Prop} {s : State} (hs : StagingLaw w s) (g : Fin 4) :
    StagingLaw (fun k => w k ∨ k = g) (windDown s g) ∧ Kept s (windDown s g) := by
  have stays : (s.group g).state = .disabled ∨ (s.group g).state = .stopping →
      StagingLaw (fun k => w k ∨ k = g) s ∧ Kept s s := by
    intro h
    refine ⟨{ hs with mode := ⟨hs.mode.1, fun hl => ⟨fun k hk => ?_, (hs.mode.2 hl).2⟩⟩ }, .refl s⟩
    rcases hk with hk | rfl
    · exact (hs.mode.2 hl).1 k hk
    · exact h
  unfold windDown
  cases hst : (s.group g).state with
  | running => exact disableGroup_keeps hs (by simp [State.staging, hst])
  | faulted => exact disableGroup_keeps hs (by simp [State.staging, hst])
  | disabled => exact stays (.inl hst)
  | stopping => exact stays (.inr hst)

/-- The groups are wound down one after another (R179). -/
theorem foldl_windDown_law (l : List (Fin 4)) {w : Fin 4 → Prop} {s : State} (hs : StagingLaw w s) :
    StagingLaw (fun k => w k ∨ k ∈ l) (l.foldl windDown s) ∧ Kept s (l.foldl windDown s) := by
  induction l generalizing w s with
  | nil => exact ⟨hs.weaken (by simp), .refl s⟩
  | cons g l ih =>
    obtain ⟨h1, k1⟩ := windDown_law hs g
    obtain ⟨h2, k2⟩ := ih h1
    exact ⟨h2.weaken (by simp [or_assoc]), k1.trans k2⟩

/-- BYPASS keeps the laws, and winds every group down (R179, R180). -/
theorem bypassAction_keeps (w : Fin 4 → Prop) (arg : Byte) (s : State) : Keeps w s (bypassAction arg s).state := by
  unfold bypassAction
  split
  · exact .refl w s
  · split
    · exact .refl w s
    · intro hs
      split
      next hd =>
        have hb : StagingLaw w { s with mode := .bypass } :=
          ⟨hs.counts, hs.order, hs.held, hs.shape, fun _ => (allDisabled_iff s).mp hd, fun h => (by cases h)⟩
        have hq : Keeps w { s with mode := .bypass } (({ s with mode := .bypass } : State).cause .bypassReached) :=
          keeps_quiet rfl rfl rfl rfl rfl rfl
        obtain ⟨h1, k1⟩ := hq hb
        exact ⟨h1, (Kept.of_mode s .bypass).trans k1⟩
      next hd =>
        have hl : StagingLaw (fun _ => False) { s with mode := .leaving } :=
          ⟨hs.counts, hs.order, hs.held, hs.shape, fun h => (by cases h), fun _ =>
            ⟨fun _ h => h.elim, (allDisabled_false_iff s).mp (Bool.eq_false_iff.mpr hd)⟩⟩
        obtain ⟨h1, k1⟩ := foldl_windDown_law four hl
        exact ⟨h1.weaken fun g _ => .inr (mem_four g), (Kept.of_mode s .leaving).trans k1⟩

theorem activateAction_keeps (w : Fin 4 → Prop) (arg : Byte) (s : State) :
    Keeps w s (activateAction arg s).state := by
  unfold activateAction
  split
  · exact .refl w s
  · split
    · exact .refl w s
    · exact fun hs => ⟨⟨hs.counts, hs.order, hs.held, hs.shape, fun h => (by cases h), fun h => (by cases h)⟩,
        Kept.of_mode s .active⟩

theorem enableAction_keeps (w : Fin 4 → Prop) (g : Fin 4) (s : State) : Keeps w s (enableAction g s).state := by
  unfold enableAction
  split
  · exact .refl w s
  next hm =>
    split
    · exact .refl w s
    next hd => exact enable_keeps (not_not.mp hm) (not_not.mp hd)

theorem disableAction_keeps (w : Fin 4 → Prop) (g : Fin 4) (s : State) : Keeps w s (disableAction g s).state := by
  have disable : (s.group g).state = .running ∨ (s.group g).state = .faulted → Keeps w s (disableGroup g s) := by
    intro h hs
    obtain ⟨h1, k1⟩ := disableGroup_keeps (g := g) hs (by rcases h with h | h <;> simp [State.staging, h])
    exact ⟨h1.weaken fun _ => .inl, k1⟩
  unfold disableAction
  split
  next h => exact disable (.inl h)
  next h => exact disable (.inr h)
  all_goals exact .refl w s

theorem sealAction_keeps (w : Fin 4 → Prop) (g : Fin 4) (s : State) : Keeps w s (sealAction g s).state := by
  have sealed : (s.group g).state ≠ .disabled →
      Keeps w s (if (s.group g).hasSealed then refuse .busy s else done (sealGroup g s)).state := by
    intro hon
    split
    · exact .refl w s
    next hn => exact sealGroup_keeps (Bool.eq_false_iff.mpr hn) hon
  unfold sealAction
  split
  · exact .refl w s
  · exact .refl w s
  next h => exact sealed (by simp [h])
  next h => exact sealed (by simp [h])

theorem discardAction_keeps (w : Fin 4 → Prop) (g : Fin 4) (s : State) : Keeps w s (discardAction g s).state := by
  have discard : Keeps w s (retryAdmission (discardOpen g s)) :=
    (discardOpen_keeps w g s).trans (retryAdmission_keeps w _)
  unfold discardAction
  split
  · exact .refl w s
  · exact .refl w s
  · exact discard
  · exact discard

theorem withIndex_keeps {w : Fin 4 → Prop} {f : Fin 4 → State → Taken} (hf : ∀ g s, Keeps w s (f g s).state)
    (arg : Byte) (s : State) : Keeps w s (withIndex arg f s).state := by
  unfold withIndex
  split
  · exact .refl w s
  · exact hf _ s

/-! ## The management link -/

theorem readEffect_keeps (w : Fin 4 → Prop) (o : Obj) (s : State) : Keeps w s (readEffect o s) := by
  unfold readEffect
  split
  · exact keeps_quiet rfl rfl rfl rfl rfl rfl
  · exact .refl w s

theorem putTimerCfg_keeps (w : Fin 4 → Prop) (t : Fin 4) (v : TimerCfgRaw) (s : State) :
    Keeps w s (putTimerCfg t v s).state := by
  unfold putTimerCfg
  split
  · exact .refl w s
  · split
    · exact .refl w s
    · split
      · exact .refl w s
      · split <;> exact keeps_quiet rfl rfl rfl rfl rfl rfl

theorem putMonCfg_keeps (w : Fin 4 → Prop) (m : Fin 4) (v : MonCfgRaw) (s : State) :
    Keeps w s (putMonCfg m v s).state := by
  unfold putMonCfg
  split
  · exact .refl w s
  · exact keeps_quiet rfl rfl rfl rfl rfl rfl

theorem putCmtCfg_keeps (w : Fin 4 → Prop) (g : Fin 4) (v : CmtCfgRaw) (s : State) :
    Keeps w s (putCmtCfg g v s).state := by
  unfold putCmtCfg
  split
  · split
    · exact .refl w s
    · exact keeps_quiet rfl rfl rfl rfl rfl rfl
  · exact .refl w s

theorem putDevice_keeps (w : Fin 4 → Prop) (v : DeviceRaw) (s : State) : Keeps w s (putDevice v s).state := by
  unfold putDevice
  split
  · exact .refl w s
  · exact keeps_quiet rfl rfl rfl rfl rfl rfl

theorem softResetAction_keeps (w : Fin 4 → Prop) (arg : Byte) (s : State) :
    Keeps w s (softResetAction arg s).state := by
  unfold softResetAction
  split
  · exact .refl w s
  · exact softReset_keeps w s

theorem timerStartAction_keeps (w : Fin 4 → Prop) (t : Fin 4) (s : State) :
    Keeps w s (timerStartAction t s).state := by
  unfold timerStartAction
  split
  · exact .refl w s
  · exact keeps_quiet rfl rfl rfl rfl rfl rfl

theorem timerStopAction_keeps (w : Fin 4 → Prop) (t : Fin 4) (s : State) :
    Keeps w s (timerStopAction t s).state := by
  unfold timerStopAction
  split
  · exact keeps_quiet rfl rfl rfl rfl rfl rfl
  · exact .refl w s

theorem setCmtAction_keeps (w : Fin 4 → Prop) (arg : Byte) (s : State) : Keeps w s (setCmtAction arg s).state := by
  unfold setCmtAction
  split
  · exact .refl w s
  · exact keeps_quiet rfl rfl rfl rfl rfl rfl

/-- Every request keeps the laws once its CRC byte is found correct (R167). -/
theorem requestOp_keeps (w : Fin 4 → Prop) (c : Instr) (s : State) : Keeps w s (requestOp c s).state := by
  cases c with
  | get o crc => exact readEffect_keeps w o s
  | getCapture m crc => exact readEffect_keeps w (.capture m) s
  | putDevice v crc => exact putDevice_keeps w v s
  | putWindow n v crc => exact putWindow_keeps w n v s
  | putGroupCfg g v crc => exact putGroupCfg_keeps w g v s
  | putTimerCfg t v crc => exact putTimerCfg_keeps w t v s
  | putMonCfg m v crc => exact putMonCfg_keeps w m v s
  | putCmtCfg g v crc => exact putCmtCfg_keeps w g v s
  | activate arg crc => exact activateAction_keeps w arg s
  | bypass arg crc => exact bypassAction_keeps w arg s
  | softReset arg crc => exact softResetAction_keeps w arg s
  | enableGroup arg crc => exact withIndex_keeps (enableAction_keeps w) arg s
  | disableGroup arg crc => exact withIndex_keeps (disableAction_keeps w) arg s
  | sealGroup arg crc => exact withIndex_keeps (sealAction_keeps w) arg s
  | discard arg crc => exact withIndex_keeps (discardAction_keeps w) arg s
  | clearFault arg crc => exact withIndex_keeps (clearFault_keeps w) arg s
  | timerStart arg crc => exact withIndex_keeps (timerStartAction_keeps w) arg s
  | timerStop arg crc => exact withIndex_keeps (timerStopAction_keeps w) arg s
  | timerPreset arg crc => exact withIndex_keeps (fun _ _ => keeps_quiet rfl rfl rfl rfl rfl rfl) arg s
  | setCmt arg crc => exact setCmtAction_keeps w arg s
  | _ => exact keeps_quiet rfl rfl rfl rfl rfl rfl

theorem startReply_keeps (w : Fin 4 → Prop) (bytes : List Byte) (s : State) : Keeps w s (startReply bytes s) :=
  keeps_quiet rfl rfl rfl rfl rfl rfl

theorem takeRequest_keeps {w : Fin 4 → Prop} {op : State → Taken} (hop : ∀ s, Keeps w s (op s).state)
    (body : List Byte) (crc : Byte) (s : State) : Keeps w s (takeRequest body crc op s) := by
  unfold takeRequest
  split
  · exact (hop s).trans (startReply_keeps w _ _)
  · exact keeps_quiet rfl rfl rfl rfl rfl rfl

theorem requestArrives_keeps {w : Fin 4 → Prop} {op : State → Taken} (hop : ∀ s, Keeps w s (op s).state)
    (body : List Byte) (crc : Byte) (s : State) : Keeps w s (requestArrives body crc op s) := by
  unfold requestArrives
  split
  · exact takeRequest_keeps hop body crc s
  · exact .refl w s

/-- A byte clocked in keeps the laws, also when it completes a request (R164, R165). -/
theorem clockByte_keeps (w : Fin 4 → Prop) (b : Byte) (s : State) : Keeps w s (clockByte b s) := by
  have take : ∀ bytes, Keeps w s (takeBytes bytes s) := by
    intro bytes
    unfold takeBytes
    split
    next c _ => exact takeRequest_keeps (requestOp_keeps w c) _ _ s
    next => exact .refl w s
  unfold clockByte
  split
  · exact .refl w s
  · exact .refl w s
  · unfold receiveRequestByte
    split
    · exact take _
    · exact keeps_quiet rfl rfl rfl rfl rfl rfl
  · exact keeps_quiet rfl rfl rfl rfl rfl rfl
  · exact keeps_quiet rfl rfl rfl rfl rfl rfl

theorem startFrame_keeps (w : Fin 4 → Prop) (s : State) : Keeps w s (startFrame s) := by
  unfold startFrame
  split
  · split <;> exact keeps_quiet rfl rfl rfl rfl rfl rfl
  all_goals exact .refl w s

theorem endFrame_keeps (w : Fin 4 → Prop) (s : State) : Keeps w s (endFrame s) := by
  unfold endFrame
  split
  case h_5 => exact .refl w s
  all_goals exact keeps_quiet rfl rfl rfl rfl rfl rfl

/-! ## Every command -/

/-- A well-formed management command is its request (R165, R167). -/
theorem exec_request_wf {c : Instr} {body : List Byte} (hb : c.requestBody = some body) (hwf : c.wf = true) (s : State) :
    exec c s = .next (requestArrives body c.requestCrc (requestOp c) s) := by
  cases c with
  | unknownRequest cmd num arg crc => cases hb; exact congrArg Host.Outcome.next (if_pos hwf)
  | readOnlyPut o payload crc => cases hb; exact congrArg Host.Outcome.next (if_pos hwf)
  | _ => cases hb <;> rfl

/-- A ready management command has its effect and its reply (R167, R168). -/
theorem exec_ready {c : Instr} {body : List Byte} {s : State} (hb : c.requestBody = some body) (hwf : c.wf = true)
    (h : RequestReady s body c.requestCrc) :
    exec c s = .next (replied (requestOp c s).reply.bytes (requestOp c s).state) := by
  rw [exec_request_wf hb hwf, requestArrives_ready _ h, replied_eq_startReply]

/-- A management command is its request, or it is not of its row and leaves the part as it is (R165, R167). -/
theorem exec_request {c : Instr} {body : List Byte} (hb : c.requestBody = some body) (s : State) :
    exec c s = .next s ∨ exec c s = .next (requestArrives body c.requestCrc (requestOp c) s) := by
  by_cases hwf : c.wf = true
  · exact .inr (exec_request_wf hb hwf s)
  · cases c with
    | unknownRequest cmd num arg crc => exact .inl (congrArg Host.Outcome.next (if_neg hwf))
    | readOnlyPut o payload crc => exact .inl (congrArg Host.Outcome.next (if_neg hwf))
    | _ => cases hb <;> exact .inr rfl

theorem exec_request_keeps (w : Fin 4 → Prop) {c : Instr} {body : List Byte} {s t : State}
    (hb : c.requestBody = some body) (h : exec c s = .next t) : Keeps w s t := by
  rcases exec_request hb s with he | he <;> rw [he] at h <;> cases h
  · exact .refl w s
  · exact requestArrives_keeps (requestOp_keeps w c) body c.requestCrc s

theorem execTimerStep_keeps (w : Fin 4 → Prop) {t : Fin 4} {s u : State} (h : execTimerStep t s = .next u) :
    Keeps w s u := by
  unfold execTimerStep at h
  cases h
  split
  · exact Keeps.trans (t := s.modTimer t fun x => { x with prescale := 0 }) (keeps_quiet rfl rfl rfl rfl rfl rfl)
      (countEvent_keeps w t _)
  · exact .refl w s

/-- Every command keeps the laws. -/
theorem exec_keeps (w : Fin 4 → Prop) {c : Instr} {s t : State} (h : exec c s = .next t) : Keeps w s t := by
  cases c with
  | powerOn => cases h; exact hardReset_keeps w s
  | rstnAssert => cases h; exact hardReset_keeps w s
  | rstnRelease => cases h; exact releaseReset_keeps w s
  | requestAccept p r => cases h; exact arrive_keeps w p r s
  | headProcessing p => cases h; exact processHead_keeps w p s
  | memoryGrant => cases h; exact grant_keeps w s
  | memoryAnswer a data => cases h; exact takeAnswer_keeps w a data s
  | drainStart => cases h; exact testStart_keeps w s
  | responseDelivery p => cases h; exact deliver_keeps w p s
  | holdTimerExpiry => cases h; exact expireHold_keeps w s
  | serviceTick order => cases h; exact serviceTick_keeps w order s
  | timerStep i => exact execTimerStep_keeps w h
  | pulseEnd g => cases h; exact keeps_quiet rfl rfl rfl rfl rfl rfl
  | syncTransition i level => cases h; exact syncSettles_keeps w i level s
  | choldChange asserted => cases h; exact choldSet_keeps w asserted s
  | frameStart => cases h; exact startFrame_keeps w s
  | frameEnd => cases h; exact endFrame_keeps w s
  | requestByteReceived b => cases h; exact clockByte_keeps w b s
  | _ => exact exec_request_keeps w rfl h

/-- Every step keeps the law of the staging path, and the quotas, the windows and the table with it. -/
theorem step_keeps (w : Fin 4 → Prop) {s t : State} (h : step s = .next t) : Keeps w s t := by
  unfold step at h
  split at h
  next => cases h; exact refclkEdge_keeps w s
  next c rest _ =>
    exact Keeps.trans (t := { s with pending := rest }) (keeps_quiet rfl rfl rfl rfl rfl rfl) (exec_keeps w h)

/-- Every step keeps `StagingSound`. -/
theorem step_keeps_stagingSound {s t : State} (hs : StagingSound s) (h : step s = .next t) : StagingSound t :=
  (stagingSound_iff t).mpr (step_keeps _ h ((stagingSound_iff s).mp hs)).1

/-- Every step from a sound staging path keeps the windows apart. -/
theorem step_keeps_windowsApart {s t : State} (hs : StagingSound s) (hw : WindowsApart s) (h : step s = .next t) :
    WindowsApart t :=
  (step_keeps _ h ((stagingSound_iff s).mp hs)).2.apart hw

/-- Settles O55: the law of the staging path carries the quotas and the entries from step to step. -/
theorem stepsKeepTheQuotas : Obligations.StepsKeepTheQuotas := by
  intro s t ⟨hs, hq⟩ h
  exact ⟨step_keeps_stagingSound hs h, (step_keeps _ h ((stagingSound_iff s).mp hs)).2.quota hq⟩

/-- Settles O56: the law of the staging path carries the table from step to step. -/
theorem stepsKeepTheTable : Obligations.StepsKeepTheTable := by
  intro s t hs h
  obtain ⟨hl, ht⟩ := (tableSound_iff s).mp hs
  obtain ⟨hl', k⟩ := step_keeps _ h hl
  exact (tableSound_iff t).mpr ⟨hl', k.table ht⟩

end Sys2Proof.Machine

namespace Sys2Proof.Machine

/-! ## HEAD_PROCESSING by the classifier's verdict (R6 to R11) -/

theorem classify_misaligned {r : Request} (h : r.addr.toNat % 4 ≠ 0) (mode : DeviceMode) (ws : Eight Window) :
    classify mode ws r = .refused .align := by
  simp [classify, (misaligned_iff r).mpr h]

theorem classify_badLength {r : Request} (ha : r.addr.toNat % 4 = 0) (h : r.count.toNat = 0 ∨ 8 < r.count.toNat)
    (mode : DeviceMode) (ws : Eight Window) : classify mode ws r = .refused .length := by
  have hm : misaligned r = false := Bool.eq_false_iff.mpr fun h => (misaligned_iff r).mp h ha
  simp [classify, hm, (badLength_iff r).mpr h]

/-- The request at the head of a port, once processed: seen by the monitors, then handled as its verdict gives. -/
theorem exec_headProcessing {s : State} {p : PortId} {i : Fin 4} {r : Request}
    (h : (s.port p).head? = some ⟨i, r, .waiting⟩) :
    exec (.headProcessing p) s = .next (examine p r (seenAtHead p r s)) := by
  change Host.Outcome.next (processHead p s) = _
  unfold processHead
  rw [h]
  rfl

theorem headProcessing_refused {s : State} {p : PortId} {i : Fin 4} {r : Request} {c : RespCode}
    (h : (s.port p).head? = some ⟨i, r, .waiting⟩) (hc : classify s.mode s.windows r = .refused c) :
    exec (.headProcessing p) s = .next ((seenAtHead p r s).setHead p (.answered ⟨c, []⟩)) := by
  rw [exec_headProcessing h]
  simp only [examine, seenAtHead, observe_mode, observe_windows, hc]

theorem headProcessing_host {s : State} {i : Fin 4} {r : Request} {cls : ReqClass}
    (h : s.hp.head? = some ⟨i, r, .waiting⟩) (hc : classify s.mode s.windows r = .placed cls) :
    exec (.headProcessing .hp) s = .next (handleHost cls r (seenAtHead .hp r s)) := by
  rw [exec_headProcessing (p := .hp) h]
  simp only [examine, seenAtHead, observe_mode, observe_windows, hc]

theorem headProcessing_consumer {s : State} {i : Fin 4} {r : Request} {cls : ReqClass}
    (h : s.cp.head? = some ⟨i, r, .waiting⟩) (hc : classify s.mode s.windows r = .placed cls) :
    exec (.headProcessing .cp) s = .next (handleConsumer cls r (seenAtHead .cp r s)) := by
  rw [exec_headProcessing (p := .cp) h]
  simp only [examine, seenAtHead, observe_mode, observe_windows, hc]

theorem classify_outside {s : State} {r : Request} (hf : FormSound r) (hm : s.mode ≠ .bypass)
    (h : outsideAll s r = true) : classify s.mode s.windows r = .placed .outside := by
  rw [classify_active hf hm, spanClass_outside h]

theorem classify_inside {s : State} {r : Request} {n : Fin 8} (hw : WindowsApart s) (hf : FormSound r)
    (hm : s.mode ≠ .bypass) (h : insideOne s n r = true) :
    classify s.mode s.windows r = .placed (windowClass s.windows n) := by
  rw [classify_active hf hm, spanClass_inside hw hf h]

/-- The class a STAGED window gives is the one of the statements (R8). -/
theorem windowClass_staged {s : State} {n : Fin 8} (h : (s.windows.get n).kind = .staged) :
    windowClass s.windows n = stagedClass s n := by
  simp [windowClass, stagedClass, h]

theorem windowClass_locked {ws : Eight Window} {n : Fin 8} (h : (ws.get n).kind = .locked) :
    windowClass ws n = .locked n := by
  simp [windowClass, h]

@[simp] theorem seenAtHead_group (p : PortId) (r : Request) (s : State) (g : Fin 4) :
    (seenAtHead p r s).group g = s.group g := observe_group _ _ _ _ _

/-- Settles O9, by the verdict of the classifier. -/
theorem headProcessingChecksForm : Obligations.HeadProcessingChecksForm := by
  intro s p i r h
  refine ⟨fun ha => headProcessing_refused h (classify_misaligned ha _ _),
    fun ha hl => headProcessing_refused h (classify_badLength ha hl _ _), fun hf hm h0 hn => ?_, fun hf hb => ?_⟩
  · refine headProcessing_refused h ?_
    rw [classify_active hf hm, spanClass_straddles h0 hn]
  · have hc : classify s.mode s.windows r = .placed .bypassed := by rw [classify_formSound hf, hb]
    cases p with
    | hp => exact headProcessing_host h hc
    | cp => exact headProcessing_consumer h hc

/-- Settles O10, class by class at each port. -/
theorem requestsAreHandledByClass : Obligations.RequestsAreHandledByClass := by
  refine ⟨fun s i r h hf hm hw => ⟨fun h0 => headProcessing_host h (classify_outside hf hm h0), fun n hn => ?_⟩,
    fun s i r h hf hm hw => ⟨fun h0 => headProcessing_consumer h (classify_outside hf hm h0), fun n hn => ?_⟩⟩
  · rw [headProcessing_host h (classify_inside hw hf hm hn)]
    refine ⟨fun hk => ?_, fun hk => ?_⟩
    · rw [windowClass_locked hk]
      exact ⟨fun hr => by simp only [handleHost, hr], fun hr => by simp only [handleHost, hr]⟩
    · rw [windowClass_staged hk]
      refine ⟨fun hd => ?_, fun hd hr => ?_, fun hd hr hfw => ?_⟩
      · exact congrArg _ (handleHost_disabled r (by simpa using hd))
      · exact congrArg _ (handleHost_stopping (by simpa using hd) hr)
      · exact congrArg _ ((handleHost_read (by simpa using hd) hr).trans (if_neg (by simp [hfw])))
  · rw [headProcessing_consumer h (classify_inside hw hf hm hn)]
    refine ⟨fun hr hbar => ?_, fun hk hr => ?_, fun hk hpass => ?_⟩
    · rcases windowClass_cases s.windows n with ⟨hk, hc⟩ | ⟨hk, hc⟩ <;> rw [hc]
      · rw [handleConsumer_locked n hr]
      · rw [handleConsumer_stagedWrite hr, if_neg]
        simpa using hbar.resolve_left (by simp [hk])
    · rw [windowClass_locked hk, handleConsumer_read _ hr]
    · rw [windowClass_staged hk]
      cases hr : r.kind with
      | read => rw [handleConsumer_read _ hr]
      | write =>
        refine congrArg _ ((handleConsumer_stagedWrite hr).trans (if_pos ?_))
        simpa using hpass.resolve_left (by simp [hr])

end Sys2Proof.Machine

namespace Sys2Proof.Machine

/-! ## The coded fields of a PUT (Section 10.7) -/

theorem yes_eq (b : Byte) : yes b = decide (b.toNat ≠ 0) := by
  rw [yes, Bool.eq_iff_iff, bne_iff_ne, decide_eq_true_eq, not_iff_not]
  exact ⟨fun h => by rw [h]; rfl, fun h => BitVec.eq_of_toNat_eq (by simpa using h)⟩

theorem WindowKind.ofByte_none {b : Byte} : WindowKind.ofByte b = none ↔ 1 < b.toNat := by
  revert b; decide

theorem WindowKind.ofByte_some {b : Byte} (h : ¬ 1 < b.toNat) :
    WindowKind.ofByte b = some (if b.toNat = 0 then .staged else .locked) := by
  revert b; decide

theorem FullPolicy.ofByte_none {b : Byte} : FullPolicy.ofByte b = none ↔ 1 < b.toNat := by
  revert b; decide

theorem FullPolicy.ofByte_some {b : Byte} (h : ¬ 1 < b.toNat) :
    FullPolicy.ofByte b = some (if b.toNat = 0 then .stall else .refuse) := by
  revert b; decide

theorem Edge.ofByte_none {b : Byte} : Edge.ofByte b = none ↔ b.toNat = 0 ∨ 3 < b.toNat := by
  revert b; decide

theorem Edge.ofByte_some {b : Byte} (h : ¬ (b.toNat = 0 ∨ 3 < b.toNat)) :
    Edge.ofByte b = some (if b.toNat = 1 then .rising else if b.toNat = 2 then .falling else .both) := by
  revert b; decide

theorem index4_some {b : Byte} {g : Fin 4} (h : b.toNat = g.val) : index4 b = some g := by
  have hlt : b.toNat < 4 := h ▸ g.isLt
  simp only [index4, hlt, dif_pos, Option.some.injEq]
  exact Fin.ext h

/-- Step 1 of R3. -/
def BadWindow (v : WindowRaw) : Prop :=
  v.base.toNat % 256 ≠ 0 ∨ v.size.toNat = 0 ∨ 65536 < v.size.toNat ∨ 2 ^ 32 < v.base.toNat + 256 * v.size.toNat ∨
    1 < v.kind.toNat ∨ 3 < v.group.toNat ∨ 1 < v.policy.toNat

/-- The window a PUT carries, with its group given as a number. -/
def rawWindow (v : WindowRaw) (g : Fin 4) : Window where
  enabled := decide (v.enabled.toNat ≠ 0)
  base := v.base
  size := v.size.toNat
  kind := if v.kind.toNat = 0 then .staged else .locked
  group := g
  forward := decide (v.forward.toNat ≠ 0)
  policy := if v.policy.toNat = 0 then .stall else .refuse

theorem bitVec_eq_zero_iff {n : Nat} (x : BitVec n) : x = 0 ↔ x.toNat = 0 :=
  ⟨fun h => by rw [h]; simp, fun h => BitVec.eq_of_toNat_eq (by simpa using h)⟩

/-- A PUT of a window that fails step 1 of R3 carries no window. -/
theorem windowOfRaw_bad {v : WindowRaw} (h : BadWindow v) : windowOfRaw v = none := by
  unfold windowOfRaw
  split
  next => rfl
  next hr =>
    simp only [bitVec_eq_zero_iff, not_or] at hr
    obtain ⟨hb, hz, hs, he⟩ := hr
    have hcode : 1 < v.kind.toNat ∨ 3 < v.group.toNat ∨ 1 < v.policy.toNat := by
      unfold BadWindow at h
      omega
    rcases hcode with hk | hg | hp
    · rw [WindowKind.ofByte_none.mpr hk]
    · rw [index4_none hg]; cases WindowKind.ofByte v.kind <;> rfl
    · rw [FullPolicy.ofByte_none.mpr hp]; cases WindowKind.ofByte v.kind <;> cases index4 v.group <;> rfl

/-- A PUT of a window that passes step 1 of R3 carries all seven fields (R1). -/
theorem windowOfRaw_good {v : WindowRaw} (h : ¬ BadWindow v) {g : Fin 4} (hg : v.group.toNat = g.val) :
    windowOfRaw v = some (rawWindow v g) := by
  simp only [BadWindow, not_or] at h
  obtain ⟨hb, hz, hs, he, hk, -, hp⟩ := h
  unfold windowOfRaw
  rw [if_neg (by simp only [bitVec_eq_zero_iff]; omega), WindowKind.ofByte_some hk, index4_some hg,
    FullPolicy.ofByte_some hp, yes_eq, yes_eq]
  rfl

theorem group_of_goodWindow {v : WindowRaw} (h : ¬ BadWindow v) : ∃ g : Fin 4, v.group.toNat = g.val := by
  simp only [BadWindow, not_or, Nat.not_lt] at h
  obtain ⟨-, -, -, -, -, hg, -⟩ := h
  exact ⟨⟨v.group.toNat, by omega⟩, rfl⟩

/-- Two ranges that are not empty share an address exactly when they meet (R3). -/
theorem rangesMeet_iff (b1 b2 : Addr) {s1 s2 : Nat} (h1 : 1 ≤ s1) (h2 : 1 ≤ s2) : rangesMeet b1 s1 b2 s2 = true ↔
    ∃ a : Nat, b1.toNat ≤ a ∧ a < b1.toNat + 256 * s1 ∧ b2.toNat ≤ a ∧ a < b2.toNat + 256 * s2 := by
  simp only [rangesMeet, Bool.and_eq_true, decide_eq_true_eq]
  constructor
  · rintro ⟨h3, h4⟩
    exact ⟨max b1.toNat b2.toNat, by omega, by omega, by omega, by omega⟩
  · rintro ⟨a, ha⟩
    omega

theorem sideFree_iff (s : State) (x : Window) : sideFree s x = true ↔
    x.enabled = false ∨ x.kind = .locked ∨ (s.group x.group).state = .disabled := by
  simp [sideFree, or_assoc]

theorem overlapsOther_iff (s : State) (n : Fin 8) (x : Window) : overlapsOther s n x = true ↔ x.enabled = true ∧
    ∃ k : Fin 8, k ≠ n ∧ (s.windows.get k).enabled = true ∧
      rangesMeet x.base x.size (s.windows.get k).base (s.windows.get k).size = true := by
  simp [overlapsOther, List.any_eq_true, and_assoc]

theorem exec_putWindow {s : State} {n : Fin 8} {v : WindowRaw} {crc : Byte}
    (h : RequestReady s (0x02 :: BitVec.ofNat 8 (0x10 + n.val) :: v.toBytes) crc) :
    exec (.putWindow n v crc) s = .next (replied (putWindow n v s).reply.bytes (putWindow n v s).state) :=
  exec_ready (c := .putWindow n v crc) rfl rfl h

/-- The second side of the gating of R4, in the fields of the PUT. -/
theorem sideFree_rawWindow {s : State} {v : WindowRaw} {g : Fin 4} (h : ¬ BadWindow v) (hg : v.group.toNat = g.val) :
    sideFree s (rawWindow v g) = true ↔ v.enabled.toNat = 0 ∨ v.kind.toNat = 1 ∨
      ∀ k : Fin 4, v.group.toNat = k.val → (s.group k).state = .disabled := by
  have hkind : (rawWindow v g).kind = .locked ↔ v.kind.toNat = 1 := by
    simp only [BadWindow, not_or] at h
    by_cases h0 : v.kind.toNat = 0
    · simp [rawWindow, h0]
    · simp only [rawWindow, h0, if_false, true_iff]; omega
  rw [sideFree_iff, hkind]
  refine or_congr (by simp [rawWindow]) (or_congr_right ⟨fun hd k hk => ?_, fun hd => hd g hg⟩)
  rwa [← Fin.ext (hg.symm.trans hk)]

/-- Step 3 of R3, in the fields of the PUT. -/
theorem overlapsOther_rawWindow {s : State} {n : Fin 8} {v : WindowRaw} {g : Fin 4} (h : ¬ BadWindow v)
    (hw : WindowsApart s) : overlapsOther s n (rawWindow v g) = true ↔
      v.enabled.toNat ≠ 0 ∧ ∃ k : Fin 8, k ≠ n ∧ (s.windows.get k).enabled = true ∧
        ∃ a : Nat, v.base.toNat ≤ a ∧ a < v.base.toNat + 256 * v.size.toNat ∧
          (s.windows.get k).base.toNat ≤ a ∧ a < (s.windows.get k).base.toNat + 256 * (s.windows.get k).size := by
  have hsize : 1 ≤ v.size.toNat := by simp only [BadWindow, not_or] at h; omega
  rw [overlapsOther_iff]
  refine and_congr (by simp [rawWindow]) (exists_congr fun k => and_congr_right fun _ => and_congr_right fun _ => ?_)
  exact rangesMeet_iff v.base (s.windows.get k).base hsize (hw.1 k).2.1

theorem putWindow_good {s : State} {n : Fin 8} {v : WindowRaw} {g : Fin 4} (h : ¬ BadWindow v)
    (hg : v.group.toNat = g.val) : putWindow n v s =
      if sideFree s (s.windows.get n) = false ∨ sideFree s (rawWindow v g) = false then refuse .busy s
      else if overlapsOther s n (rawWindow v g) then refuse .overlap s
      else done { s with windows := s.windows.set n (rawWindow v g) } := by
  simp only [putWindow, windowOfRaw_good h hg]

/-- Settles O40: each clause is one branch of the PUT. -/
theorem putWindowChecksAndReplaces : Obligations.PutWindowChecksAndReplaces := by
  intro s n v crc bad busy overlap h hw hbad hbusy hover
  change (bad ↔ BadWindow v) at hbad
  rw [hbad, exec_putWindow h]
  by_cases hb : BadWindow v
  · have hput : putWindow n v s = refuse .badValue s := by simp only [putWindow, windowOfRaw_bad hb]
    exact ⟨fun _ => by rw [hput]; rfl, fun hn => absurd hb hn, fun hn => absurd hb hn, fun hn => absurd hb hn⟩
  · obtain ⟨g, hg⟩ := group_of_goodWindow hb
    have hbusy' : busy ↔ sideFree s (s.windows.get n) = false ∨ sideFree s (rawWindow v g) = false := by
      rw [hbusy, ← sideFree_iff, ← sideFree_rawWindow hb hg, not_and_or, Bool.not_eq_true, Bool.not_eq_true]
    rw [putWindow_good hb hg, hbusy', hover, ← overlapsOther_rawWindow (g := g) hb hw]
    refine ⟨fun hn => absurd hn hb, fun _ hb' => ?_, fun _ hb' ho => ?_, fun _ hb' ho k hk => ?_⟩
    · rw [if_pos hb']; rfl
    · rw [if_neg hb', if_pos ho]; rfl
    · rw [if_neg hb', if_neg ho, Fin.ext (hg.symm.trans hk)]; rfl

/-! ## PUT of GROUP_CFG_g (R14) -/

/-- Step 1 of R14. -/
def BadGroupCfg (v : GroupCfgRaw) : Prop :=
  v.quota.toNat = 0 ∨ 512 < v.quota.toNat ∨ 4095 < v.timeout.toNat ∨ 15 < v.sources.toNat ∨
    v.edge.toNat = 0 ∨ 3 < v.edge.toNat

/-- The configuration a PUT carries. -/
def rawGroupCfg (v : GroupCfgRaw) : GroupCfg where
  quota := v.quota.toNat
  stallTimeout := v.timeout.toNat
  sources := ⟨v.sources.getLsbD 0, v.sources.getLsbD 1, v.sources.getLsbD 2, v.sources.getLsbD 3⟩
  syncEdge := if v.edge.toNat = 1 then .rising else if v.edge.toNat = 2 then .falling else .both
  sealEmpty := decide (v.sealEmpty.toNat ≠ 0)

theorem groupCfgOfRaw_bad {v : GroupCfgRaw} (h : BadGroupCfg v) : groupCfgOfRaw v = none := by
  unfold groupCfgOfRaw
  split
  next => rfl
  next hr =>
    simp only [bitVec_eq_zero_iff, not_or] at hr
    obtain ⟨hz, hq, ht⟩ := hr
    have hcode : 15 < v.sources.toNat ∨ v.edge.toNat = 0 ∨ 3 < v.edge.toNat := by
      unfold BadGroupCfg at h
      omega
    rcases hcode with hs | he
    · rw [SealSources.ofByte, if_neg (by omega)]
    · rw [Edge.ofByte_none.mpr he]; cases SealSources.ofByte v.sources <;> rfl

/-- A PUT of a group configuration that passes step 1 of R14 carries all five fields. -/
theorem groupCfgOfRaw_good {v : GroupCfgRaw} (h : ¬ BadGroupCfg v) : groupCfgOfRaw v = some (rawGroupCfg v) := by
  simp only [BadGroupCfg, not_or] at h
  obtain ⟨hz, hq, ht, hs, he⟩ := h
  unfold groupCfgOfRaw
  rw [if_neg (by simp only [bitVec_eq_zero_iff]; omega), SealSources.ofByte, if_pos (by omega),
    Edge.ofByte_some (by omega), yes_eq]
  rfl

/-- Step 3 of R14: a sync input with two uses, or PEAK without UPDOWN (R112). -/
theorem pairingConflict_iff (x : SealSources) (source : CountSource) (mode : TimerMode) :
    pairingConflict x source mode = true ↔
      (x.sync = true ∧ ∃ e : Edge, source = .sync e) ∨ (x.peak = true ∧ mode ≠ .upDown) := by
  cases source <;> simp [pairingConflict]

theorem exec_putGroupCfg {s : State} {g : Fin 4} {v : GroupCfgRaw} {crc : Byte}
    (h : RequestReady s (0x02 :: BitVec.ofNat 8 (0x20 + g.val) :: v.toBytes) crc) :
    exec (.putGroupCfg g v crc) s = .next (replied (putGroupCfg g v s).reply.bytes (putGroupCfg g v s).state) :=
  exec_ready (c := .putGroupCfg g v crc) rfl rfl h

theorem putGroupCfg_good {s : State} {g : Fin 4} {v : GroupCfgRaw} (h : ¬ BadGroupCfg v) : putGroupCfg g v s =
    if (s.group g).state ≠ .disabled then refuse .busy s
    else if pairingConflict (rawGroupCfg v).sources (s.timer g).source (s.timer g).mode then refuse .badValue s
    else done (s.modGroup g (fun x => { x with cfg := rawGroupCfg v })) := by
  simp only [putGroupCfg, groupCfgOfRaw_good h]

/-- Settles O41: each clause is one branch of the PUT. -/
theorem putGroupCfgChecksAndReplaces : Obligations.PutGroupCfgChecksAndReplaces := by
  intro s g v crc bad conflict h hbad hconf
  change (bad ↔ BadGroupCfg v) at hbad
  rw [hbad, exec_putGroupCfg h]
  by_cases hb : BadGroupCfg v
  · have hput : putGroupCfg g v s = refuse .badValue s := by simp only [putGroupCfg, groupCfgOfRaw_bad hb]
    exact ⟨fun _ => by rw [hput]; rfl, fun hn => absurd hb hn, fun hn => absurd hb hn, fun hn => absurd hb hn⟩
  · have hconf' : conflict ↔
        pairingConflict (rawGroupCfg v).sources (s.timer g).source (s.timer g).mode = true := by
      rw [hconf, pairingConflict_iff]
      rfl
    rw [putGroupCfg_good hb, hconf']
    refine ⟨fun hn => absurd hn hb, fun _ hd => ?_, fun _ hd hc => ?_, fun _ hd hc => ?_⟩
    · rw [if_pos hd]; rfl
    · rw [if_neg (not_not.mpr hd), if_pos hc]; rfl
    · rw [if_neg (not_not.mpr hd), if_neg hc]; rfl

end Sys2Proof.Machine

namespace Sys2Proof.Machine

/-! ## Group actions (R17, R18, R19, R41) -/

/-- A ready action on group `g` has its effect and its reply (R167, R175). -/
theorem exec_groupAction {s : State} {g : Fin 4} {crc : Byte} {a : MgmtAction} {f : Fin 4 → State → Taken}
    (hop : requestOp (a.command (BitVec.ofNat 8 g.val) crc) = withIndex (BitVec.ofNat 8 g.val) f)
    (hb : (a.command (BitVec.ofNat 8 g.val) crc).requestBody = some [0x03, a.code, BitVec.ofNat 8 g.val])
    (hc : (a.command (BitVec.ofNat 8 g.val) crc).requestCrc = crc)
    (h : RequestReady s [0x03, a.code, BitVec.ofNat 8 g.val] crc) :
    exec (a.command (BitVec.ofNat 8 g.val) crc) s = .next (replied (f g s).reply.bytes (f g s).state) := by
  have hwf : (a.command (BitVec.ofNat 8 g.val) crc).wf = true := by cases a <;> rfl
  rw [exec_ready hb hwf (hc.symm ▸ h), hop, withIndex_ofNat]

theorem exec_enableGroup {s : State} {g : Fin 4} {crc : Byte}
    (h : RequestReady s [0x03, 0x10, BitVec.ofNat 8 g.val] crc) : exec (.enableGroup (BitVec.ofNat 8 g.val) crc) s =
      .next (replied (enableAction g s).reply.bytes (enableAction g s).state) :=
  exec_groupAction (a := .enableGroup) rfl rfl rfl h

theorem exec_disableGroup {s : State} {g : Fin 4} {crc : Byte}
    (h : RequestReady s [0x03, 0x11, BitVec.ofNat 8 g.val] crc) : exec (.disableGroup (BitVec.ofNat 8 g.val) crc) s =
      .next (replied (disableAction g s).reply.bytes (disableAction g s).state) :=
  exec_groupAction (a := .disableGroup) rfl rfl rfl h

theorem exec_discard {s : State} {g : Fin 4} {crc : Byte}
    (h : RequestReady s [0x03, 0x13, BitVec.ofNat 8 g.val] crc) : exec (.discard (BitVec.ofNat 8 g.val) crc) s =
      .next (replied (discardAction g s).reply.bytes (discardAction g s).state) :=
  exec_groupAction (a := .discard) rfl rfl rfl h

theorem exec_clearFault {s : State} {g : Fin 4} {crc : Byte}
    (h : RequestReady s [0x03, 0x14, BitVec.ofNat 8 g.val] crc) : exec (.clearFault (BitVec.ofNat 8 g.val) crc) s =
      .next (replied (clearFaultAction g s).reply.bytes (clearFaultAction g s).state) :=
  exec_groupAction (a := .clearFault) rfl rfl rfl h

/-! ### ENABLE_GROUP -/

theorem enableAction_wrongMode {s : State} (g : Fin 4) (h : s.mode ≠ .active) :
    enableAction g s = refuse .wrongMode s := if_pos h

theorem enableAction_wrongState {s : State} {g : Fin 4} (hm : s.mode = .active) (h : (s.group g).state ≠ .disabled) :
    enableAction g s = refuse .wrongState s := by
  rw [enableAction, if_neg (not_not.mpr hm), if_pos h]

theorem enableAction_done {s : State} {g : Fin 4} (hm : s.mode = .active) (h : (s.group g).state = .disabled) :
    enableAction g s = done (reexamineConsumer g (reexamineHost g (s.modGroup g GroupRec.enabled))) := by
  rw [enableAction, if_neg (not_not.mpr hm), if_neg (not_not.mpr h)]

/-- Without a host request that waits to be passed through there is none to re-examine (R12). -/
theorem reexamineHost_nothing {g : Fin 4} {s : State}
    (h : ∀ sl ∈ s.hp.head?.toList, sl.phase.passesThrough = false) : reexamineHost g s = s := by
  unfold reexamineHost
  split
  next sl hsl =>
    have hp := h sl (by simp [hsl])
    split
    next cls hph => rw [hph] at hp; cases hp
    all_goals rfl
  next => rfl

/-- Without a consumer write that waits to be passed through there is none to re-examine (R12). -/
theorem reexamineConsumer_nothing {g : Fin 4} {s : State}
    (h : ∀ sl ∈ s.cp.head?.toList, sl.phase.passesThrough = true → sl.req.kind = .read) : reexamineConsumer g s = s := by
  unfold reexamineConsumer
  split
  next sl hsl =>
    have hp := h sl (by simp [hsl])
    split
    next cls hph hk => rw [hph, hk] at hp; cases hp rfl
    next => rfl
  next => rfl

/-- Where a request lies: outside the windows, inside one, or across a border (R8). -/
theorem request_lies (s : State) (r : Request) : outsideAll s r = true ∨ (∃ n : Fin 8, insideOne s n r = true) ∨
    (outsideAll s r = false ∧ ∀ n : Fin 8, insideOne s n r = false) := by
  by_cases h0 : outsideAll s r = true
  · exact .inl h0
  · by_cases hn : ∃ n : Fin 8, insideOne s n r = true
    · exact .inr (.inl hn)
    · exact .inr (.inr ⟨Bool.eq_false_iff.mpr h0, fun n => Bool.eq_false_iff.mpr fun h => hn ⟨n, h⟩⟩)

/-- A window is one of group `g`, or it is LOCKED or of another group. -/
theorem window_ofGroup (s : State) (n : Fin 8) (g : Fin 4) :
    ((s.windows.get n).kind = .staged ∧ (s.windows.get n).group = g) ∨
    ((s.windows.get n).kind = .locked ∨ (s.windows.get n).group ≠ g) := by
  cases (s.windows.get n).kind with
  | locked => exact .inr (.inl rfl)
  | staged =>
    by_cases hg : (s.windows.get n).group = g
    · exact .inl ⟨rfl, hg⟩
    · exact .inr (.inr hg)

/-- A slot whose request waits to be passed through. -/
theorem passesAt_of {s : State} {p : PortId} {sl : Slot} (hsl : (s.port p).head? = some sl)
    (hp : sl.phase.passesThrough = true) : PassesAt s p sl.req := by
  obtain ⟨i, r, ph⟩ := sl
  cases ph with
  | head cls role =>
    cases role with
    | passThrough => exact ⟨i, cls, hsl⟩
    | forwarded => cases hp
    | held cause timer => cases hp
  | waiting => cases hp
  | issued => cases hp
  | answered resp => cases hp

/-- Every state has an outcome of the Host Port's re-examination. -/
theorem hostReexamined_total (g : Fin 4) (s : State) : ∃ t, HostReexamined g s t := by
  by_cases hn : ∀ sl ∈ s.hp.head?.toList, sl.phase.passesThrough = false
  · exact ⟨s, .nothing hn⟩
  · simp only [not_forall, Bool.not_eq_false, Option.mem_toList] at hn
    obtain ⟨sl, hsl, hp⟩ := hn
    have hpass : PassesAt s .hp sl.req := passesAt_of (p := .hp) hsl hp
    rcases request_lies s sl.req with h0 | ⟨n, hin⟩ | ⟨h0, hno⟩
    · exact ⟨s, .outside hpass h0⟩
    · rcases window_ofGroup s n g with ⟨hk, hg⟩ | he
      · cases hkind : sl.req.kind with
        | write =>
          by_cases hfit : Fits g sl.req s
          · exact ⟨_, .writeFits hpass hin hk hg hkind hfit⟩
          · cases hpol : (s.windows.get n).policy with
            | refuse => exact ⟨_, .writeRefused hpass hin hk hg hkind hfit hpol⟩
            | stall => exact ⟨_, .writeHeld hpass hin hk hg hkind hfit hpol⟩
        | read =>
          cases hfw : (s.windows.get n).forward with
          | false => exact ⟨_, .readPasses hpass hin hk hg hkind hfw⟩
          | true =>
            by_cases hfull : ∀ a ∈ requestWords sl.req, (overlayOf s.queue g a).full = true
            · exact ⟨_, .readCovered hpass hin hk hg hkind hfw hfull⟩
            · refine ⟨_, .readForwarded hpass hin hk hg hkind hfw ?_⟩
              simpa only [not_forall, Bool.not_eq_true, exists_prop] using hfull
      · exact ⟨s, .elsewhere hpass hin he⟩
    · exact ⟨_, .straddles hpass h0 hno⟩

/-- Every state has an outcome of the Consumer Port's re-examination. -/
theorem consumerReexamined_total (g : Fin 4) (s : State) : ∃ t, ConsumerReexamined g s t := by
  by_cases hn : ∀ sl ∈ s.cp.head?.toList, sl.phase.passesThrough = true → sl.req.kind = .read
  · exact ⟨s, .nothing hn⟩
  · simp only [not_forall, Option.mem_toList] at hn
    obtain ⟨sl, hsl, hp, hread⟩ := hn
    have hpass : PassesAt s .cp sl.req := passesAt_of (p := .cp) hsl hp
    have hwrite : sl.req.kind = .write := by cases hk : sl.req.kind; exacts [absurd hk hread, rfl]
    rcases request_lies s sl.req with h0 | ⟨n, hin⟩ | ⟨h0, hno⟩
    · exact ⟨s, .outside hpass h0⟩
    · rcases window_ofGroup s n g with ⟨hk, hg⟩ | he
      · exact ⟨_, .barred hpass hwrite hin hk hg⟩
      · exact ⟨s, .elsewhere hpass hin he⟩
    · exact ⟨_, .straddles hpass hwrite h0 hno⟩

/-- Settles O46: the refusals, and the two re-examinations one after the other. -/
theorem enableGroupStartsAndReexamines : Obligations.EnableGroupStartsAndReexamines := by
  refine ⟨fun s g crc h => ?_, fun s s1 g crc h hm hd hw hhp hcp hs1 => ?_⟩
  · rw [exec_enableGroup h]
    refine ⟨fun hm => ?_, fun hm hd => ?_, fun hm hd hhp hcp => ?_⟩
    · rw [enableAction_wrongMode g hm]; rfl
    · rw [enableAction_wrongState hm hd]; rfl
    · rw [enableAction_done hm hd, reexamineHost_nothing (s := s.modGroup g GroupRec.enabled) hhp,
        reexamineConsumer_nothing (s := s.modGroup g GroupRec.enabled) hcp]
      rfl
  · have henabled : s.modGroup g GroupRec.enabled = s1 := hs1.symm
    have hw1 : WindowsApart s1 := by rw [hs1]; exact hw
    have hhp1 : ∀ sl ∈ s1.hp.head?.toList, FormSound sl.req := by rw [hs1]; exact hhp
    have hcp1 : s1.cp = s.cp := by rw [hs1]
    rw [exec_enableGroup h, enableAction_done hm hd, henabled]
    refine ⟨?_, fun t u ht hu => ?_⟩
    · obtain ⟨t, ht⟩ := hostReexamined_total g s1
      obtain ⟨u, hu⟩ := consumerReexamined_total g t
      exact ⟨t, u, ht, hu⟩
    · have hhost := reexamineHost_of hw1 hhp1 ht
      obtain ⟨f1, f2, -⟩ := reexamineHost_frame g s1
      rw [hhost] at f1 f2 ⊢
      rw [reexamineConsumer_of (hw1.congr f1) (by rw [f2, hcp1]; exact hcp) hu]
      rfl

/-! ### DISABLE_GROUP -/

theorem disableAction_refused {s : State} {g : Fin 4} (h : (s.group g).state = .disabled ∨ (s.group g).state = .stopping) :
    disableAction g s = refuse .wrongState s := by
  unfold disableAction
  rcases h with h | h <;> rw [h]

theorem disableAction_done {s : State} {g : Fin 4} (h : (s.group g).state = .running ∨ (s.group g).state = .faulted) :
    disableAction g s = done (disableGroup g s) := by
  unfold disableAction
  rcases h with h | h <;> rw [h]

/-- The group in STOPPING, with the write held for it converted (R34). -/
def stoppedAt (g : Fin 4) (s : State) : State :=
  holdConverted g { s with groups := s.groups.set g { s.group g with state := .stopping } }

theorem stoppedAt_eq (g : Fin 4) (s : State) : stoppedAt g s = convertHold g (s.inState g .stopping) :=
  (convertHold_eq_holdConverted g _).symm

/-- A stop touches the group's state and the Host Port alone. -/
theorem stoppedAt_frame (g : Fin 4) (s : State) : (stoppedAt g s).engine = s.engine ∧ (stoppedAt g s).chold = s.chold ∧
    (stoppedAt g s).commitReq = s.commitReq ∧ (stoppedAt g s).queue = s.queue := by
  obtain ⟨p, hp⟩ := convertHold_eq g (s.inState g .stopping)
  rw [stoppedAt_eq, hp]
  exact ⟨rfl, rfl, rfl, rfl⟩

theorem disableGroup_atOnce {s : State} {g : Fin 4} (ho : (s.group g).openCount = 0) (hz : (s.group g).sealedCount = 0)
    (hn : (s.group g).hasSealed = false) : disableGroup g s = disabledAt g s := by
  rw [disableGroup, if_pos ⟨ho, hz, hn⟩, reachDisabled_eq_disabledAt]

theorem disableGroup_stops {s : State} {g : Fin 4} (hn : (s.group g).hasSealed = true) :
    disableGroup g s = stoppedAt g s := by
  rw [disableGroup, if_neg (by simp [hn]), stoppedAt_eq]
  exact if_neg (by simp [hn])

theorem disableGroup_seals {s : State} {g : Fin 4} (hn : (s.group g).hasSealed = false)
    (ho : 0 < (s.group g).openCount) : disableGroup g s = sealGroup g (stoppedAt g s) := by
  rw [disableGroup, if_neg (by omega), stoppedAt_eq]
  exact if_pos ⟨hn, ho⟩

/-- Outside LEAVING a group that reaches DISABLED moves nothing but its state and the write held for it (R36). -/
theorem disabledAt_of_mode {s : State} (g : Fin 4) (hm : s.mode ≠ .leaving) : disabledAt g s =
    holdReleased g { s with groups := s.groups.set g { s.group g with state := .disabled } } :=
  if_neg fun h => hm h.1

/-- The OPEN entries of a sealed group are SEALED entries. -/
theorem hasSealedEntry_sealedAt {s : State} {g : Fin 4}
    (h : s.queue.any (fun e => e.group == g && e.role == .opened) = true) :
    hasSealedEntry (sealedAt g s).queue g = true := by
  simp only [List.any_eq_true, Bool.and_eq_true, beq_iff_eq] at h
  obtain ⟨e, he, hg, hr⟩ := h
  simp only [hasSealedEntry, List.any_eq_true, Bool.and_eq_true, beq_iff_eq]
  refine ⟨{ e with role := .sealed, issue := .notIssued }, List.mem_map.mpr ⟨e, he, if_pos ⟨hg, hr⟩⟩, hg, rfl⟩

/-- Settles O47, by the branches of DISABLE_GROUP and the outcomes of the start test. -/
theorem disableGroupStopsTheGroup : Obligations.DisableGroupStopsTheGroup := by
  intro s stopped g crc h hstopped
  obtain rfl : stopped = stoppedAt g s := hstopped
  rw [exec_disableGroup h]
  refine ⟨fun hst => by rw [disableAction_refused hst]; rfl, fun hst => ?_⟩
  rw [disableAction_done hst]
  refine ⟨fun ho hz hn => ⟨?_, fun hm hno => ?_, fun x hm hx hxg => ?_⟩, fun hn => ?_, fun hn ho => ?_⟩
  · rw [disableGroup_atOnce ho hz hn]; rfl
  · rw [disabledAt_of_mode g hm, ← releaseHeld_eq_holdReleased]
    rcases hold_cases (releaseHeld_spec g { s with groups := s.groups.set g { s.group g with state := .disabled } })
      with ⟨-, hr⟩ | ⟨i, x, hx, hxg, -⟩
    · exact hr
    · exact absurd hxg (hno x (held_eq_some.mpr ⟨i, hx⟩))
  · rw [disabledAt_of_mode g hm, ← releaseHeld_eq_holdReleased]
    exact (releaseHeld_spec g _).2.2 x hx hxg
  · rw [disableGroup_stops hn]; rfl
  · rw [disableGroup_seals hn ho]
    obtain ⟨f1, f2, f3, f4⟩ := stoppedAt_frame g s
    have hengine : (sealedAt g (stoppedAt g s)).engine = s.engine := f1
    have hqueue : (sealedAt g (stoppedAt g s)).commitReq = s.commitReq ++ [g] := congrArg (fun l => l ++ [g]) f3
    have seals : ∀ {u : State}, StartTest (sealedAt g (stoppedAt g s)) u →
        replied (done (sealGroup g (stoppedAt g s))).reply.bytes (done (sealGroup g (stoppedAt g s))).state =
          replied [0xC0] u := fun hu => by rw [sealGroup_of hu]; rfl
    refine ⟨fun u hu => congrArg _ (seals hu), fun hrest => congrArg _ (seals (.rests ?_)),
      fun hc he hq hopen => congrArg _ (seals ?_)⟩
    · rcases hrest with hc | he
      · exact .inr (.inr (f2.trans hc))
      · exact .inl (by rw [hengine]; exact he)
    · rw [hq, List.nil_append] at hqueue
      have hstart := StartTest.starts (by rw [hengine]; exact he) hqueue (f2.trans hc)
        (.inl (hasSealedEntry_sealedAt (by rw [f4]; exact hopen)))
      rwa [startedAt, hengine] at hstart

/-! ### DISCARD and CLEAR_FAULT -/

/-- Settles O49, by the branches of the two actions. -/
theorem discardAndClearFault : Obligations.DiscardAndClearFault := by
  refine ⟨fun s g crc h => ?_, fun s g crc h => by rw [exec_clearFault h]; rfl⟩
  rw [exec_discard h]
  unfold discardAction
  refine ⟨fun hst => by rw [hst]; rfl, fun hst => by rw [hst]; rfl, fun hst => ?_⟩
  rcases hst with hst | hst <;> rw [hst] <;> rfl

/-! ## The values after power-on and RSTn -/

/-- Settles O4: the reset values of each table, thing by thing. -/
theorem resetValuesAreTheSpecs : Obligations.ResetValuesAreTheSpecs := by
  refine ⟨fun n => Eight.get_all _ n, fun g => Four.get_all _ g, rfl, rfl, rfl, rfl, rfl, rfl, rfl, rfl, rfl,
    fun t => Four.get_all _ t, fun m => Four.get_all _ m, fun g => Four.get_all _ g, rfl, rfl, rfl⟩

end Sys2Proof.Machine

namespace Sys2Proof.Machine

/-! ## The law of the engine (R23, R39, R61, R62, R66)

`EngineLaw` is `EngineSound` in the form that is proved step by step: the counts are left to the law of the staging path,
and what they are needed for, that SEALED entries exist only while their group has a sealed epoch (R22), stands by itself. -/

/-- What tells two entries apart (R23). -/
def Entry.key (e : Entry) : Fin 4 × Role × Addr := (e.group, e.role, e.addr)

/-- How the issue list refers to a SEALED entry (R130). -/
def Entry.ref (e : Entry) : Option EntryRef := some ⟨e.group, e.addr⟩

/-- Two entries refer to the same word of the same group, or not (R130). -/
theorem Entry.ref_eq_iff {e x : Entry} : e.ref = x.ref ↔ e.group = x.group ∧ e.addr = x.addr := by
  simp [Entry.ref]

theorem Entry.key_eq_iff {e x : Entry} : e.key = x.key ↔ e.group = x.group ∧ e.role = x.role ∧ e.addr = x.addr := by
  simp [Entry.key]

/-- What the engine knows of an entry agrees with the entry (R39, R62, R66), with these commit writes outstanding. -/
structure Followed (engine : Engine) (live : List (Option EntryRef)) (e : Entry) : Prop where
  notIssued : e.issue = .notIssued → e.role = .sealed → e.ref ∉ live
  draining : e.issue ≠ .notIssued → e.role = .sealed ∧ engine.state = .draining e.group
  issued : e.issue = .issued → e.ref ∈ live ∧ e.addr ∉ engine.retry
  reissued : e.issue = .reissued → (e.ref ∈ live ↔ e.addr ∉ engine.retry)

/-- Whether an entry is a SEALED one of group `g` to be written again (R39). -/
def Entry.reissuedOf (g : Fin 4) (e : Entry) : Bool := e.group == g && e.role == .sealed && e.issue == .reissued

/-- The words of the reissued entries of group `g`, in queue order. -/
def reissuedWords (q : List Entry) (g : Fin 4) : List Addr := (q.filter (Entry.reissuedOf g)).map Entry.addr

/-- The law of the engine, the staging queue and the issue list. -/
structure EngineLaw (s : State) : Prop where
  distinct : (s.queue.map Entry.key).Nodup
  requests : CommitQueueAgrees s
  once : (liveCommits s.issue).Nodup
  entries : ∀ e ∈ s.queue, Followed s.engine (liveCommits s.issue) e
  commits : ∀ x ∈ liveCommits s.issue, ∃ e ∈ s.queue, x = e.ref ∧ e.role = .sealed ∧ s.engine.state = .draining e.group
  idle : s.engine.state = .idle → s.engine.retry = []
  retry : ∀ g : Fin 4, s.engine.state = .draining g → s.engine.retry.Sublist (reissuedWords s.queue g)
  sealed : ∀ e ∈ s.queue, e.role = .sealed → (s.group e.group).hasSealed = true

theorem entriesDistinct_iff (s : State) : EntriesDistinct s ↔ (s.queue.map Entry.key).Nodup := by
  unfold EntriesDistinct List.Nodup
  rw [List.pairwise_map]
  have hkey : ∀ a b : Entry, sameKey a b = false ↔ a.key ≠ b.key := by
    intro a b
    rw [Bool.eq_false_iff, not_iff_not, Entry.key_eq_iff]
    simp [sameKey, and_assoc]
  simp only [hkey]

theorem entryFollowed_iff (s : State) (e : Entry) :
    entryFollowed s e = true ↔ Followed s.engine (liveCommits s.issue) e := by
  have hmem : ((liveCommits s.issue).contains (some ⟨e.group, e.addr⟩)) = decide (e.ref ∈ liveCommits s.issue) :=
    List.contains_eq_mem _ _
  constructor
  · intro h
    unfold entryFollowed at h
    rw [hmem] at h
    cases hi : e.issue <;> simp only [hi] at h
    · exact ⟨fun _ hr => by simpa [hr] using h, fun hn => absurd hi hn, fun hn => by simp [hi] at hn,
        fun hn => by simp [hi] at hn⟩
    · simp only [Bool.and_eq_true, beq_iff_eq, decide_eq_true_eq, Bool.not_eq_true', List.contains_eq_mem,
        decide_eq_false_iff_not] at h
      obtain ⟨⟨⟨hr, hd⟩, hl⟩, ha⟩ := h
      exact ⟨fun hn => by simp [hi] at hn, fun _ => ⟨hr, hd⟩, fun _ => ⟨hl, ha⟩, fun hn => by simp [hi] at hn⟩
    · simp only [Bool.and_eq_true, beq_iff_eq, List.contains_eq_mem, bne_iff_ne, ne_eq, decide_eq_decide] at h
      obtain ⟨⟨hr, hd⟩, hx⟩ := h
      exact ⟨fun hn => by simp [hi] at hn, fun _ => ⟨hr, hd⟩, fun hn => by simp [hi] at hn, fun _ => by tauto⟩
  · rintro ⟨h1, h2, h3, h4⟩
    unfold entryFollowed
    rw [hmem]
    cases hi : e.issue with
    | notIssued =>
      cases hr : e.role with
      | opened => rfl
      | sealed => simpa using h1 hi hr
    | issued =>
      obtain ⟨hr, hd⟩ := h2 (by simp [hi])
      obtain ⟨hl, ha⟩ := h3 hi
      simp [hr, hd, hl, ha]
    | reissued =>
      obtain ⟨hr, hd⟩ := h2 (by simp [hi])
      have hx := h4 hi
      simp only [hr, hd, List.contains_eq_mem, beq_self_eq_true, Bool.true_and, bne_iff_ne, ne_eq, decide_eq_decide]
      tauto

theorem retryInOrder_eq (q : List Entry) (g : Fin 4) (retry : List Addr) :
    retryInOrder q g retry = (reissuedWords q g).filter (fun a => retry.contains a) := by
  simp only [retryInOrder, reissuedWords, List.filter_map, List.filter_filter]
  congr 1
  exact List.filter_congr fun e _ => Bool.and_comm _ _

/-- A part of a list without repetitions, in its order, is the list filtered by membership in the part. -/
theorem eq_filter_contains_iff {l r : List Addr} (h : l.Nodup) :
    r = l.filter (fun a => r.contains a) ↔ r.Sublist l := by
  constructor
  · intro hr
    rw [hr]
    exact List.filter_sublist
  · intro hr
    refine (h.perm_iff_eq_of_sublist hr List.filter_sublist).mp ?_
    refine (List.perm_ext_iff_of_nodup (h.sublist hr) (h.filter _)).mpr fun a => ?_
    simp only [List.mem_filter, List.contains_eq_mem, decide_eq_true_eq]
    exact ⟨fun ha => ⟨hr.subset ha, ha⟩, fun ha => ha.2⟩

theorem reissuedWords_nodup {q : List Entry} (h : (q.map Entry.key).Nodup) (g : Fin 4) : (reissuedWords q g).Nodup := by
  refine List.Nodup.map_on (fun x hx y hy hxy => ?_) (h.of_map.filter _)
  simp only [List.mem_filter, Entry.reissuedOf, Bool.and_eq_true, beq_iff_eq] at hx hy
  obtain ⟨hxq, ⟨hxg, hxr⟩, -⟩ := hx
  obtain ⟨hyq, ⟨hyg, hyr⟩, -⟩ := hy
  exact List.inj_on_of_nodup_map h hxq hyq
    (Entry.key_eq_iff.mpr ⟨hxg.trans hyg.symm, hxr.trans hyr.symm, hxy⟩)

/-- While SEALED entries exist only beside a sealed epoch, the counts of the staging path say so (R22, R38). -/
theorem sealed_of_counts {s : State} (h : CountsAgree s) : ∀ e ∈ s.queue, e.role = .sealed →
    (s.group e.group).hasSealed = true := by
  intro e he hr
  by_contra hn
  obtain ⟨-, hc, hz⟩ := h e.group
  have h0 := hc.symm.trans (hz (Bool.eq_false_iff.mpr hn))
  exact entryCount_zero.mp h0 e he ⟨rfl, hr⟩

/-- The law of the engine is the one of the statements, beside the counts. -/
theorem engineSound_iff (s : State) : EngineSound s ↔ CountsAgree s ∧ EngineLaw s := by
  have hentries : EntriesFollowed s ↔ ∀ e ∈ s.queue, Followed s.engine (liveCommits s.issue) e :=
    forall₂_congr fun e _ => entryFollowed_iff s e
  unfold EngineSound
  rw [entriesDistinct_iff, hentries]
  have hretry : (s.queue.map Entry.key).Nodup → ∀ g, (s.engine.retry = retryInOrder s.queue g s.engine.retry ↔
      s.engine.retry.Sublist (reissuedWords s.queue g)) := fun hd g => by
    rw [retryInOrder_eq]
    exact eq_filter_contains_iff (reissuedWords_nodup hd g)
  constructor
  · rintro ⟨hc, hd, hq, ho, he, hw, hi, hr⟩
    exact ⟨hc, hd, hq, ho, he, hw, hi, fun g hg => (hretry hd g).mp (hr g hg), sealed_of_counts hc⟩
  · rintro ⟨hc, h⟩
    exact ⟨hc, h.distinct, h.requests, h.once, h.entries, h.commits, h.idle,
      fun g hg => (hretry h.distinct g).mpr (h.retry g hg)⟩

end Sys2Proof.Machine

namespace Sys2Proof.Machine

/-! ## What a step does to the staging queue, the engine and the issue list

Every step is a sequence of moves, each of one kind (`step_moves`, below); a law of the engine is kept by every step once
every move keeps it. -/

/-- A record of a commit write that is no orphan (R73, R138). -/
def IssueRec.Live (r : IssueRec) : Prop := r.requester = .ce ∧ r.orphan = false

/-- One move. -/
inductive PathMove (s : State) : State → Prop where
  /-- Nothing moves that the engine, the staging queue or the issue list holds. -/
  | quiet {t : State} : t.queue = s.queue → t.groups = s.groups → t.windows = s.windows → t.commitReq = s.commitReq →
      t.engine = s.engine → t.issue = s.issue → PathMove s t
  /-- A group's record changes, but for its sealed epoch; a group with one does not become DISABLED (R16). -/
  | record {g : Fin 4} {f : GroupRec → GroupRec} : (f (s.group g)).hasSealed = (s.group g).hasSealed →
      ((s.group g).hasSealed = true → (f (s.group g)).state = .disabled → (s.group g).state = .disabled) →
      PathMove s (s.modGroup g f)
  /-- A window is replaced, with both sides of the change free (R3, R4). -/
  | window {n : Fin 8} {x : Window} : sideFree s (s.windows.get n) = true → sideFree s x = true →
      PathMove s { s with windows := s.windows.set n x }
  /-- A write is admitted (R26). -/
  | admits (g : Fin 4) (r : Request) : PathMove s (admitWrite g r s)
  /-- The OPEN entries of a group are discarded (R41). -/
  | discards (g : Fin 4) : PathMove s (discardOpen g s)
  /-- A group without a sealed epoch is sealed (R47). -/
  | seals {g : Fin 4} : (s.group g).hasSealed = false → (s.group g).state ≠ .disabled → PathMove s (sealCore g s)
  /-- A drain begins (R63). -/
  | begins {g : Fin 4} {rest : List (Fin 4)} : s.engine.state = .idle → s.commitReq = g :: rest →
      PathMove s (beginDrain g rest s)
  /-- A drain with no entry left ends (R73, R74). -/
  | completes {g : Fin 4} : s.engine.state = .draining g → hasSealedEntry s.queue g = false → PathMove s (completeCore g s)
  /-- A request of a master port is placed in the issue list (R131); a consumer read under the fence is not (R94). -/
  | places {r : IssueRec} : r.requester ≠ .ce → (r.requester = .cp → fenced s r.req = false) →
      PathMove s (s.placeRecord r)
  /-- A commit write is placed in the issue list (R67). -/
  | offers {e : Entry} : engineOffer s = some e → PathMove s (grantEngine e s)
  /-- The oldest record leaves the issue list, and is no commit write of a drain (R132, R138). -/
  | departs {r : IssueRec} {rest : List IssueRec} : s.issue = r :: rest → ¬ r.Live → PathMove s (departRecord r rest s)
  /-- A commit write is answered, and its entry leaves the queue (R69, R71). -/
  | removes {r : IssueRec} {rest : List IssueRec} {x : EntryRef} {e : Entry} : s.issue = r :: rest → r.Live →
      r.entry = some x → s.queue.find? (Entry.at x.group .sealed x.addr) = some e →
      PathMove s (removeSealed x.group x.addr (departRecord r rest s))
  /-- A commit write is answered with a first ERROR, and its entry is to be written again (R70). -/
  | reissues {r : IssueRec} {rest : List IssueRec} {x : EntryRef} {e : Entry} : s.issue = r :: rest → r.Live →
      r.entry = some x → s.queue.find? (Entry.at x.group .sealed x.addr) = some e → e.issue = .issued →
      PathMove s (reissue x.group x.addr (departRecord r rest s))
  /-- A commit write is answered that no issued entry waits for: no such record is in the list (log entry 18). -/
  | strays {r : IssueRec} {rest : List IssueRec} : s.issue = r :: rest → r.Live →
      (∀ x, r.entry = some x → ∀ e, s.queue.find? (Entry.at x.group .sealed x.addr) = some e → e.issue = .notIssued) →
      PathMove s (departRecord r rest s)
  /-- A reset empties the queues and leaves at most orphans in the issue list (R139, R183). -/
  | resets {t : State} : t.queue = [] → t.commitReq = [] → t.engine.state = .idle → t.engine.retry = [] →
      (∀ r ∈ t.issue, ¬ r.Live) → (∀ g : Fin 4, (t.group g).hasSealed = false) → PathMove s t

/-! ## The commit writes outstanding -/

theorem liveCommits_cons_live {r : IssueRec} (h : r.Live) (l : List IssueRec) :
    liveCommits (r :: l) = r.entry :: liveCommits l := by
  obtain ⟨hc, ho⟩ := h
  simp [liveCommits, hc, ho]

theorem liveCommits_cons_other {r : IssueRec} (h : ¬ r.Live) (l : List IssueRec) :
    liveCommits (r :: l) = liveCommits l := by
  have hb : (r.requester == .ce && !r.orphan) = false := Bool.eq_false_iff.mpr (by simpa [IssueRec.Live] using h)
  simp [liveCommits, hb]

theorem liveCommits_append (l m : List IssueRec) : liveCommits (l ++ m) = liveCommits l ++ liveCommits m := by
  simp [liveCommits]

theorem liveCommits_none {l : List IssueRec} (h : ∀ r ∈ l, ¬ r.Live) : liveCommits l = [] := by
  induction l with
  | nil => rfl
  | cons r l ih => rw [liveCommits_cons_other (h r (by simp)), ih fun x hx => h x (by simp [hx])]

/-! ## Entries under the law -/

theorem hasSealedEntry_false_iff {q : List Entry} {g : Fin 4} :
    hasSealedEntry q g = false ↔ ∀ e ∈ q, e.role = .sealed → e.group ≠ g := by
  simp only [hasSealedEntry, List.any_eq_false, Bool.and_eq_true, beq_iff_eq, not_and]
  exact forall₂_congr fun e _ => ⟨fun h hr hg => h hg hr, fun h hg hr => h hr hg⟩

theorem mem_reissuedWords {q : List Entry} {g : Fin 4} {a : Addr} : a ∈ reissuedWords q g ↔
    ∃ e ∈ q, e.group = g ∧ e.role = .sealed ∧ e.issue = .reissued ∧ e.addr = a := by
  simp only [reissuedWords, Entry.reissuedOf, List.mem_map, List.mem_filter, Bool.and_eq_true, beq_iff_eq, and_assoc]

/-- Under the law, entries with the same key are the same (R23). -/
theorem EngineLaw.unique {s : State} (h : EngineLaw s) {e x : Entry} (he : e ∈ s.queue) (hx : x ∈ s.queue)
    (hk : e.key = x.key) : e = x :=
  List.inj_on_of_nodup_map h.distinct he hx hk

/-- SEALED entries refer to different words, or are the same entry (R23, R130). -/
theorem EngineLaw.ref_inj {s : State} (h : EngineLaw s) {e x : Entry} (he : e ∈ s.queue) (hx : x ∈ s.queue)
    (hre : e.role = .sealed) (hrx : x.role = .sealed) (href : e.ref = x.ref) : e = x := by
  obtain ⟨hg, ha⟩ := Entry.ref_eq_iff.mp href
  exact h.unique he hx (Entry.key_eq_iff.mpr ⟨hg, hre.trans hrx.symm, ha⟩)

theorem Entry.ref_of_found {q : List Entry} {x : EntryRef} {e : Entry}
    (hf : q.find? (Entry.at x.group .sealed x.addr) = some e) : e.ref = some x ∧ e.role = .sealed ∧ e ∈ q := by
  have hat := List.find?_some hf
  simp only [Entry.at, Bool.and_eq_true, beq_iff_eq] at hat
  obtain ⟨⟨hg, hs⟩, ha⟩ := hat
  exact ⟨by simp [Entry.ref, hg, ha], hs, List.mem_of_find?_eq_some hf⟩

/-- The SEALED entry at a word is the one found there (R23). -/
theorem EngineLaw.found {s : State} (h : EngineLaw s) {x : EntryRef} {e y : Entry}
    (hf : s.queue.find? (Entry.at x.group .sealed x.addr) = some e) (hy : y ∈ s.queue) (hr : y.role = .sealed)
    (hyx : y.ref = some x) : y = e := by
  obtain ⟨href, hs, he⟩ := Entry.ref_of_found hf
  exact h.ref_inj hy he hr hs (hyx.trans href.symm)

/-- The engine follows an entry as it did while no commit write of the entry comes or goes, and its word neither joins
nor leaves the *retry list*. -/
theorem Followed.of_same {engine engine' : Engine} {live live' : List (Option EntryRef)} {e : Entry}
    (h : Followed engine live e) (hs : engine.state = .draining e.group → engine'.state = .draining e.group)
    (hl : e.role = .sealed → (e.ref ∈ live' ↔ e.ref ∈ live))
    (hr : e.role = .sealed → engine.state = .draining e.group → (e.addr ∈ engine'.retry ↔ e.addr ∈ engine.retry)) :
    Followed engine' live' e := by
  refine ⟨fun hn hrole => by rw [hl hrole]; exact h.notIssued hn hrole, fun hn => ?_, fun hi => ?_, fun hi => ?_⟩
  · obtain ⟨hrole, hd⟩ := h.draining hn
    exact ⟨hrole, hs hd⟩
  · obtain ⟨hrole, hd⟩ := h.draining (by simp [hi])
    rw [hl hrole, hr hrole hd]
    exact h.issued hi
  · obtain ⟨hrole, hd⟩ := h.draining (by simp [hi])
    rw [hl hrole, hr hrole hd]
    exact h.reissued hi

theorem CommitQueueAgrees.congr {s t : State} (h : CommitQueueAgrees s)
    (hg : ∀ g, (t.group g).hasSealed = (s.group g).hasSealed) (hc : t.commitReq = s.commitReq)
    (hs : t.engine.state = s.engine.state) : CommitQueueAgrees t := by
  unfold CommitQueueAgrees
  simpa only [hg, hc, hs] using h

/-- Nothing of the law changes. -/
theorem EngineLaw.congr {s t : State} (h : EngineLaw s) (hq : t.queue = s.queue)
    (hg : ∀ g, (t.group g).hasSealed = (s.group g).hasSealed) (hc : t.commitReq = s.commitReq)
    (hs : t.engine.state = s.engine.state) (hr : t.engine.retry = s.engine.retry)
    (hl : liveCommits t.issue = liveCommits s.issue) : EngineLaw t := by
  refine ⟨by rw [hq]; exact h.distinct, h.requests.congr hg hc hs, by rw [hl]; exact h.once, fun e he => ?_, ?_, ?_, ?_, ?_⟩
  · rw [hl]
    exact (h.entries e (hq ▸ he)).of_same (by simp [hs]) (fun _ => Iff.rfl) (fun _ _ => by rw [hr])
  · simpa only [hl, hq, hs] using h.commits
  · simpa only [hr, hs] using h.idle
  · simpa only [hr, hq, hs] using h.retry
  · simpa only [hq, hg] using h.sealed

/-! ## Each move keeps the law -/

/-- While no drain is in progress no entry has been issued and no commit write is outstanding (R39, R66). -/
theorem EngineLaw.at_rest {s : State} (h : EngineLaw s) (hidle : ∀ g, s.engine.state = .draining g →
    ∀ e ∈ s.queue, e.role = .sealed → e.group ≠ g) :
    (∀ e ∈ s.queue, e.issue = .notIssued) ∧ liveCommits s.issue = [] := by
  refine ⟨fun e he => ?_, List.eq_nil_iff_forall_not_mem.mpr fun x hx => ?_⟩
  · by_contra hn
    obtain ⟨hr, hd⟩ := (h.entries e he).draining hn
    exact hidle _ hd e he hr rfl
  · obtain ⟨e, he, -, hr, hd⟩ := h.commits x hx
    exact hidle _ hd e he hr rfl

/-- A queue of which no entry has been issued is followed. -/
theorem Followed.of_rest {engine : Engine} {e : Entry} (h : e.issue = .notIssued) : Followed engine [] e :=
  ⟨fun _ _ => by simp, fun hn => absurd h hn, fun hn => by simp [h] at hn, fun hn => by simp [h] at hn⟩

/-- An entry that an admission or a discard leaves as it was for the engine: its key and its *issue state*. -/
theorem Followed.of_key {engine : Engine} {live : List (Option EntryRef)} {e x : Entry} (h : Followed engine live x)
    (hk : e.key = x.key) (hi : e.issue = x.issue) : Followed engine live e := by
  obtain ⟨hg, hr, ha⟩ := Entry.key_eq_iff.mp hk
  have href : e.ref = x.ref := Entry.ref_eq_iff.mpr ⟨hg, ha⟩
  obtain ⟨h1, h2, h3, h4⟩ := h
  refine ⟨?_, ?_, ?_, ?_⟩ <;> simpa only [href, hg, hr, ha, hi]

/-- An OPEN entry that has not been issued is followed, whatever is outstanding (R39). -/
theorem Followed.of_opened {engine : Engine} {live : List (Option EntryRef)} {e : Entry} (hi : e.issue = .notIssued)
    (hr : e.role = .opened) : Followed engine live e :=
  ⟨fun _ hs => (by simp [hr] at hs), fun hn => absurd hi hn, fun hn => (by simp [hi] at hn),
    fun hn => (by simp [hi] at hn)⟩

theorem touchedBy_sameKey (g : Fin 4) (ws : List (Addr × Beat)) (e : Entry) : (touchedBy g ws e).key = e.key := by
  obtain ⟨hg, hr, ha, -⟩ := touchedBy_key g ws e
  exact Entry.key_eq_iff.mpr ⟨hg, hr, ha⟩

/-- An admission gives no two entries the same key (R23, R26). -/
theorem admitWords_keys_nodup {q : List Entry} (h : (q.map Entry.key).Nodup) (g : Fin 4) (r : Request) :
    ((admitWords g r q).map Entry.key).Nodup := by
  have hold : Entry.key ∘ touchedBy g (requestBeats r) = Entry.key := funext (touchedBy_sameKey g _)
  rw [admitWords_eq, List.map_append, List.map_map, List.map_map, hold, List.nodup_append]
  refine ⟨h, ?_, fun a ha b hb hab => ?_⟩
  · refine List.pairwise_map.mpr (((requestBeats_distinct r).filter _).imp fun hne => ?_)
    simpa [Entry.key, newEntry] using hne
  · obtain ⟨e, he, rfl⟩ := List.mem_map.mp ha
    obtain ⟨w, hw, rfl⟩ := List.mem_map.mp hb
    obtain ⟨-, hc⟩ := List.mem_filter.mp hw
    simp only [countsAsNeed, Bool.and_eq_true, Bool.not_eq_true', openAt, List.any_eq_false] at hc
    obtain ⟨hg, hr, ha⟩ := Entry.key_eq_iff.mp hab
    exact hc.2 e he (by simpa [Entry.at, newEntry] using ⟨⟨hg, hr⟩, ha⟩)

/-- A change of entries that leaves the word of each, and whether it is to be written again, leaves the words to be
written again. -/
theorem reissuedWords_map {f : Entry → Entry} {k : Fin 4} (ha : ∀ e, (f e).addr = e.addr)
    (hr : ∀ e, (f e).reissuedOf k = e.reissuedOf k) (q : List Entry) :
    reissuedWords (q.map f) k = reissuedWords q k := by
  unfold reissuedWords
  rw [List.filter_map, List.map_map, show Entry.addr ∘ f = Entry.addr from funext ha,
    show Entry.reissuedOf k ∘ f = Entry.reissuedOf k from funext hr]

/-- An entry that has not been issued, or is not SEALED, is not to be written again. -/
theorem Entry.reissuedOf_false {e : Entry} (k : Fin 4) (h : e.role = .opened ∨ e.issue ≠ .reissued) :
    e.reissuedOf k = false := by
  rcases h with h | h <;> simp [Entry.reissuedOf, h]

/-- An admission makes no entry reissued (R26). -/
theorem reissuedWords_admitWords (g : Fin 4) (r : Request) (q : List Entry) (k : Fin 4) :
    reissuedWords (admitWords g r q) k = reissuedWords q k := by
  have hnew : ∀ l : List (Addr × Beat), reissuedWords (l.map fun w => newEntry g w.1 w.2) k = [] := fun l => by
    simp only [reissuedWords, List.map_eq_nil_iff, List.filter_eq_nil_iff, List.mem_map]
    rintro _ ⟨w, -, rfl⟩
    simp [Entry.reissuedOf_false (e := newEntry g w.1 w.2) k (.inl rfl)]
  have happ : ∀ l m : List Entry, reissuedWords (l ++ m) k = reissuedWords l k ++ reissuedWords m k := fun l m => by
    simp [reissuedWords]
  rw [admitWords_eq, happ, hnew, List.append_nil]
  refine reissuedWords_map (fun e => (touchedBy_key g _ e).2.2.1) (fun e => ?_) q
  obtain ⟨hg, hr, -, hi⟩ := touchedBy_key g (requestBeats r) e
  simp [Entry.reissuedOf, hg, hr, hi]

/-- An old entry stands in the queue after an admission, touched or not (R26). -/
theorem touchedBy_mem_admitWords {q : List Entry} {e : Entry} (g : Fin 4) (r : Request) (he : e ∈ q) :
    touchedBy g (requestBeats r) e ∈ admitWords g r q := by
  rw [admitWords_eq]
  exact List.mem_append_left _ (List.mem_map_of_mem he)

theorem EngineLaw.admits {s : State} (h : EngineLaw s) (g : Fin 4) (r : Request) : EngineLaw (admitWrite g r s) := by
  have hsealed : ∀ k, ((admitWrite g r s).group k).hasSealed = (s.group k).hasSealed := by
    intro k; rw [admitWrite_group]; split <;> simp_all
  refine ⟨admitWords_keys_nodup h.distinct g r, h.requests.congr hsealed rfl rfl, h.once, fun e he => ?_, fun x hx => ?_, h.idle,
    fun k hk => by rw [admitWrite_queue, reissuedWords_admitWords]; exact h.retry k hk, fun e he hr => ?_⟩
  · rcases mem_admitWords he with ⟨x, hx, rfl⟩ | ⟨w, -, -, rfl⟩
    · exact (h.entries x hx).of_key (touchedBy_sameKey g _ x) (touchedBy_key g _ x).2.2.2
    · exact .of_opened rfl rfl
  · obtain ⟨e, he, hxe, hr, hd⟩ := h.commits x hx
    obtain ⟨hg, hrole, ha, -⟩ := touchedBy_key g (requestBeats r) e
    exact ⟨_, touchedBy_mem_admitWords g r he, hxe.trans (Entry.ref_eq_iff.mpr ⟨hg.symm, ha.symm⟩), hrole.trans hr,
      by rw [hg]; exact hd⟩
  · rw [hsealed]
    rcases mem_admitWords he with ⟨x, hx, rfl⟩ | ⟨w, -, -, rfl⟩
    · obtain ⟨hg, hrole, -, -⟩ := touchedBy_key g (requestBeats r) x
      rw [hg]
      exact h.sealed x hx (hrole ▸ hr)
    · cases hr

theorem EngineLaw.discards {s : State} (h : EngineLaw s) (g : Fin 4) : EngineLaw (discardOpen g s) := by
  have hsealed : ∀ k, ((discardOpen g s).group k).hasSealed = (s.group k).hasSealed := by
    intro k
    by_cases hk : k = g <;> simp [State.group, hk]
  have hsub : (discardOpen g s).queue.Sublist s.queue := List.filter_sublist
  have hwords : reissuedWords (discardOpen g s).queue = reissuedWords s.queue := by
    funext k
    simp only [reissuedWords, discardOpen_queue, List.filter_filter]
    congr 1
    refine List.filter_congr fun e _ => ?_
    cases hr : e.role <;> simp [Entry.reissuedOf, hr]
  refine ⟨h.distinct.sublist (hsub.map _), h.requests.congr hsealed rfl rfl, h.once,
    fun e he => h.entries e (hsub.subset he), fun x hx => ?_, h.idle,
    fun k hk => by rw [hwords]; exact h.retry k hk, fun e he hr => by rw [hsealed]; exact h.sealed e (hsub.subset he) hr⟩
  obtain ⟨e, he, hxe, hr, hd⟩ := h.commits x hx
  exact ⟨e, List.mem_filter.mpr ⟨he, by simp [hr]⟩, hxe, hr, hd⟩

/-- Under the law a group without a sealed epoch has no SEALED entry (R22). -/
theorem EngineLaw.no_sealed {s : State} (h : EngineLaw s) {g : Fin 4} (hg : (s.group g).hasSealed = false) :
    ∀ e ∈ s.queue, e.role = .sealed → e.group ≠ g := by
  rintro e he hr rfl
  simp [h.sealed e he hr] at hg

theorem Entry.sealFor_of_sealed (g : Fin 4) {e : Entry} (h : e.role = .sealed) : e.sealFor g = e :=
  if_neg fun hc => by simp [h] at hc

theorem Entry.sealFor_key (g : Fin 4) (e : Entry) :
    (e.sealFor g).key = if e.group = g ∧ e.role = .opened then (g, .sealed, e.addr) else e.key := by
  unfold Entry.sealFor
  split
  next h => simp [Entry.key, h.1]
  next => rfl

/-- A seal gives no two entries the same key, when its group has no SEALED entry before (R23, R38). -/
theorem sealFor_keys_nodup {q : List Entry} {g : Fin 4} (h : (q.map Entry.key).Nodup)
    (hno : ∀ e ∈ q, e.role = .sealed → e.group ≠ g) : ((q.map (Entry.sealFor g)).map Entry.key).Nodup := by
  rw [List.map_map]
  refine List.Nodup.map_on (fun x hx y hy hxy => ?_) h.of_map
  refine List.inj_on_of_nodup_map h hx hy ?_
  simp only [Function.comp_apply, Entry.sealFor_key] at hxy
  by_cases hxo : x.group = g ∧ x.role = .opened <;> by_cases hyo : y.group = g ∧ y.role = .opened
  · rw [if_pos hxo, if_pos hyo, Prod.mk.injEq, Prod.mk.injEq] at hxy
    exact Entry.key_eq_iff.mpr ⟨hxo.1.trans hyo.1.symm, hxo.2.trans hyo.2.symm, hxy.2.2⟩
  · rw [if_pos hxo, if_neg hyo, Entry.key, Prod.mk.injEq, Prod.mk.injEq] at hxy
    exact absurd hxy.1.symm (hno y hy hxy.2.1.symm)
  · rw [if_neg hxo, if_pos hyo, Entry.key, Prod.mk.injEq, Prod.mk.injEq] at hxy
    exact absurd hxy.1 (hno x hx hxy.2.1)
  · rwa [if_neg hxo, if_neg hyo] at hxy

/-- A seal makes no entry reissued (R38). -/
theorem reissuedWords_sealFor (q : List Entry) (g k : Fin 4) :
    reissuedWords (q.map (Entry.sealFor g)) k = reissuedWords q k := by
  refine reissuedWords_map (fun e => ?_) (fun e => ?_) q <;> unfold Entry.sealFor <;> split
  next => rfl
  next => rfl
  next h => rw [Entry.reissuedOf_false k (.inr (by simp)), Entry.reissuedOf_false k (.inl h.2)]
  next => rfl

theorem EngineLaw.seals {s : State} (h : EngineLaw s) {g : Fin 4} (hg : (s.group g).hasSealed = false) :
    EngineLaw (sealCore g s) := by
  have hno := h.no_sealed hg
  have hsealed : ∀ k, ((sealCore g s).group k).hasSealed = if k = g then true else (s.group k).hasSealed := by
    intro k
    by_cases hk : k = g <;> simp [State.group, hk, GroupRec.onSeal]
  obtain ⟨hnd, hreq⟩ := h.requests
  have hgreq : g ∉ s.commitReq ∧ s.engine.state ≠ .draining g := by
    rw [← not_or, ← (hreq g).1, hg]
    simp
  refine ⟨sealFor_keys_nodup h.distinct hno, ⟨?_, fun k => ?_⟩, h.once, fun e he => ?_, fun x hx => ?_, h.idle,
    fun k hk => by rw [sealCore_queue, reissuedWords_sealFor]; exact h.retry k hk, fun e he hr => ?_⟩
  · rw [sealCore_commitReq]
    exact hnd.append (List.nodup_singleton g) (by simpa using hgreq.1)
  · rw [hsealed, sealCore_commitReq, sealCore_engine, List.mem_append, List.mem_singleton]
    by_cases hk : k = g
    · subst hk
      simp [hgreq.2]
    · simpa [hk] using hreq k
  · obtain ⟨x, hx, rfl⟩ := List.mem_map.mp he
    by_cases ho : x.group = g ∧ x.role = .opened
    · have hx' : x.sealFor g = { x with role := .sealed, issue := .notIssued } := if_pos ho
      rw [hx']
      refine ⟨fun _ _ hl => ?_, fun hn => absurd rfl hn, fun hn => (by cases hn), fun hn => (by cases hn)⟩
      obtain ⟨y, hy, hxy, hr, -⟩ := h.commits _ hl
      exact hno y hy hr ((Entry.ref_eq_iff.mp hxy).1.symm.trans ho.1)
    · have hx' : x.sealFor g = x := if_neg ho
      rw [hx']
      exact h.entries x hx
  · obtain ⟨e, he, hxe, hr, hd⟩ := h.commits x hx
    exact ⟨e, List.mem_map.mpr ⟨e, he, e.sealFor_of_sealed g hr⟩, hxe, hr, hd⟩
  · obtain ⟨x, hx, rfl⟩ := List.mem_map.mp he
    rw [hsealed]
    split
    · rfl
    next hne =>
      unfold Entry.sealFor at hr hne ⊢
      split
      next ho => rw [if_pos ho] at hne; exact absurd ho.1 hne
      next ho => rw [if_neg ho] at hr; exact h.sealed x hx hr

theorem EngineLaw.begins {s : State} (h : EngineLaw s) {g : Fin 4} {rest : List (Fin 4)} (he : s.engine.state = .idle)
    (hq : s.commitReq = g :: rest) : EngineLaw (beginDrain g rest s) := by
  obtain ⟨hrest, hlive⟩ := h.at_rest (fun k hk => by simp [he] at hk)
  obtain ⟨hnd, hreq⟩ := h.requests
  rw [hq, List.nodup_cons] at hnd
  refine ⟨h.distinct, ⟨hnd.2, fun k => ?_⟩, h.once, fun e he => ?_, fun x hx => ?_, fun hi => (by cases hi),
    fun k _ => List.nil_sublist _, h.sealed⟩
  · have hk := (hreq k).1
    rw [hq, he] at hk
    refine ⟨hk.trans ?_, fun hd => ?_⟩
    · simp [or_comm, eq_comm]
    · cases hd; exact hnd.1
  · exact (congrArg (fun l => Followed _ l e) hlive).mpr (.of_rest (hrest e he))
  · rw [beginDrain_issue, hlive] at hx
    cases hx

theorem EngineLaw.completes {s : State} (h : EngineLaw s) {g : Fin 4} (he : s.engine.state = .draining g)
    (hq : hasSealedEntry s.queue g = false) : EngineLaw (completeCore g s) := by
  have hno := hasSealedEntry_false_iff.mp hq
  obtain ⟨hrest, hlive⟩ := h.at_rest (fun k hk => by rw [he] at hk; cases hk; exact hno)
  have hsealed : ∀ k, ((completeCore g s).group k).hasSealed = if k = g then false else (s.group k).hasSealed := by
    intro k
    by_cases hk : k = g <;> simp [State.group, hk, GroupRec.onCompletion]
  obtain ⟨hnd, hreq⟩ := h.requests
  refine ⟨h.distinct, ⟨hnd, fun k => ?_⟩, h.once, fun e he => ?_, fun x hx => ?_, fun _ => ?_, fun k hk => (by cases hk),
    fun e he hr => ?_⟩
  · obtain ⟨h1, h2⟩ := hreq k
    rw [hsealed]
    by_cases hk : k = g
    · subst hk
      simpa using h2 he
    · rw [if_neg hk, h1, he]
      simp [Ne.symm hk]
  · exact (congrArg (fun l => Followed _ l e) hlive).mpr (.of_rest (hrest e he))
  · rw [completeCore_issue, hlive] at hx
    cases hx
  · have hnil : reissuedWords s.queue g = [] := List.eq_nil_iff_forall_not_mem.mpr fun a ha => by
      obtain ⟨e, he, hg, hr, -⟩ := mem_reissuedWords.mp ha
      exact hno e he hr hg
    exact List.sublist_nil.mp (hnil ▸ h.retry g he)
  · rw [hsealed, if_neg (hno e he hr)]
    exact h.sealed e he hr

/-- A change of entries that leaves their keys gives no two entries the same key (R23). -/
theorem map_keys_nodup {q : List Entry} {f : Entry → Entry} (hf : ∀ e, (f e).key = e.key) (h : (q.map Entry.key).Nodup) :
    ((q.map f).map Entry.key).Nodup := by
  rw [List.map_map, show Entry.key ∘ f = Entry.key from funext hf]
  exact h

theorem Entry.markIssued_key (x e : Entry) : (x.markIssued e).key = e.key := by
  unfold Entry.markIssued; split <;> rfl

theorem Entry.markReissued_key (g : Fin 4) (a : Addr) (e : Entry) : (e.markReissued g a).key = e.key := by
  unfold Entry.markReissued; split <;> rfl

/-- What the engine offers (R65). -/
theorem engineOffer_cases {s : State} {e : Entry} (h : engineOffer s = some e) : ∃ g, s.engine.state = .draining g ∧
    ((∃ a rest, s.engine.retry = a :: rest ∧ s.queue.find? (Entry.at g .sealed a) = some e) ∨
      (s.engine.retry = [] ∧
        s.queue.find? (fun e => e.group == g && e.role == .sealed && e.issue == .notIssued) = some e)) := by
  unfold engineOffer at h
  split at h
  next => cases h
  next g hg =>
    refine ⟨g, hg, ?_⟩
    split at h
    next a rest hr => exact .inl ⟨a, rest, hr, h⟩
    next hr => exact .inr ⟨hr, h⟩

/-- Under the law the engine offers a SEALED entry of its group that has no commit write outstanding: one that has not
been issued, or the oldest of the *retry list* (R65, R66). -/
theorem EngineLaw.offered {s : State} (h : EngineLaw s) {e : Entry} (ho : engineOffer s = some e) :
    e ∈ s.queue ∧ e.role = .sealed ∧ s.engine.state = .draining e.group ∧ e.ref ∉ liveCommits s.issue ∧
      ((e.issue = .notIssued ∧ s.engine.retry = []) ∨ (e.issue = .reissued ∧ e.addr ∈ s.engine.retry)) := by
  obtain ⟨g, hg, ⟨a, rest, hr, hf⟩ | ⟨hr, hf⟩⟩ := engineOffer_cases ho
  · obtain ⟨href, hs, he⟩ := Entry.ref_of_found (x := ⟨g, a⟩) hf
    obtain ⟨hge, hae⟩ : e.group = g ∧ e.addr = a := by simpa [Entry.ref] using href
    obtain ⟨y, hy, hyg, hyr, hyi, hya⟩ := mem_reissuedWords.mp ((h.retry g hg).subset (hr ▸ List.mem_cons_self))
    obtain rfl := h.found (x := ⟨g, a⟩) hf hy hyr (by simp [Entry.ref, hyg, hya])
    have hmem : y.addr ∈ s.engine.retry := by rw [hr, hae]; exact List.mem_cons_self
    refine ⟨he, hs, hge ▸ hg, fun hl => ?_, .inr ⟨hyi, hmem⟩⟩
    exact ((h.entries y he).reissued hyi).mp hl hmem
  · have hp := List.find?_some hf
    have he := List.mem_of_find?_eq_some hf
    simp only [Bool.and_eq_true, beq_iff_eq] at hp
    obtain ⟨⟨hge, hs⟩, hi⟩ := hp
    exact ⟨he, hs, hge ▸ hg, (h.entries e he).notIssued hi hs, .inl ⟨hi, hr⟩⟩

/-- The entry offered becomes issued, unless it is written again (R67). -/
theorem Entry.markIssued_eq (x e : Entry) : x.markIssued e =
    if e.at x.group .sealed x.addr ∧ e.issue = .notIssued then { e with issue := .issued } else e := rfl

/-- A grant to the engine makes no entry reissued (R67). -/
theorem reissuedWords_markIssued (x : Entry) (q : List Entry) (k : Fin 4) :
    reissuedWords (q.map x.markIssued) k = reissuedWords q k := by
  refine reissuedWords_map (fun e => ?_) (fun e => ?_) q <;> unfold Entry.markIssued <;> split
  next => rfl
  next => rfl
  next h => rw [Entry.reissuedOf_false k (.inr (by simp)), Entry.reissuedOf_false k (.inr (by simp [h.2]))]
  next => rfl

/-- The law of the engine for a queue whose entries change but keep their keys: what remains is what the engine knows of
each entry, of each commit write, and of the *retry list*. -/
theorem EngineLaw.of_marks {s t : State} {f : Entry → Entry} (h : EngineLaw s) (hf : ∀ e, (f e).key = e.key)
    (hq : t.queue = s.queue.map f) (hg : t.groups = s.groups) (hc : t.commitReq = s.commitReq)
    (hs : t.engine.state = s.engine.state) (hdrain : s.engine.state ≠ .idle) (hnd : (liveCommits t.issue).Nodup)
    (hlive : ∀ x ∈ liveCommits t.issue, ∃ e ∈ s.queue, x = e.ref ∧ e.role = .sealed ∧
      s.engine.state = .draining e.group)
    (hfollowed : ∀ e ∈ s.queue, Followed t.engine (liveCommits t.issue) (f e))
    (hretry : ∀ g, s.engine.state = .draining g → t.engine.retry.Sublist (reissuedWords t.queue g)) : EngineLaw t := by
  have hgr : ∀ g, (t.group g).hasSealed = (s.group g).hasSealed := fun g => by rw [State.group_congr hg]
  refine ⟨by rw [hq]; exact map_keys_nodup hf h.distinct, h.requests.congr hgr hc hs, hnd, fun e he => ?_,
    fun x hx => ?_, fun hi => absurd (hs.symm.trans hi) hdrain, fun g hd => hretry g (hs.symm.trans hd),
    fun e he hr => ?_⟩
  · obtain ⟨y, hy, rfl⟩ := List.mem_map.mp (hq ▸ he)
    exact hfollowed y hy
  · obtain ⟨e, he, hxe, hr, hd⟩ := hlive x hx
    obtain ⟨kg, kr, ka⟩ := Entry.key_eq_iff.mp (hf e)
    exact ⟨f e, by rw [hq]; exact List.mem_map_of_mem he, hxe.trans (Entry.ref_eq_iff.mpr ⟨kg.symm, ka.symm⟩),
      kr.trans hr, by rw [hs, kg]; exact hd⟩
  · obtain ⟨y, hy, rfl⟩ := List.mem_map.mp (hq ▸ he)
    obtain ⟨kg, kr, -⟩ := Entry.key_eq_iff.mp (hf y)
    rw [hgr, kg]
    exact h.sealed y hy (kr ▸ hr)

theorem Entry.at_ref {e x : Entry} : e.at x.group .sealed x.addr = true ↔ e.ref = x.ref ∧ e.role = .sealed := by
  rw [Entry.ref_eq_iff]
  simp only [Entry.at, Bool.and_eq_true, beq_iff_eq]
  tauto

/-- A grant to the engine, in what the law reads (R67). -/
theorem grantEngine_live (e : Entry) (s : State) :
    liveCommits (grantEngine e s).issue = liveCommits s.issue ++ [e.ref] := by
  simp only [grantEngine, observe_issue]
  rw [liveCommits_append, liveCommits_cons_live ⟨rfl, rfl⟩]
  rfl

@[simp] theorem grantEngine_state (e : Entry) (s : State) : (grantEngine e s).engine.state = s.engine.state := by
  simp [grantEngine]
@[simp] theorem grantEngine_retry (e : Entry) (s : State) :
    (grantEngine e s).engine.retry = s.engine.retry.erase e.addr := by simp [grantEngine]
@[simp] theorem grantEngine_queue (e : Entry) (s : State) : (grantEngine e s).queue = s.queue.map e.markIssued := by
  simp [grantEngine]

/-- The entry whose commit write is granted has that write outstanding, and is not to be written again (R66, R67). -/
theorem EngineLaw.followed_granted {s : State} (h : EngineLaw s) {e : Entry} (ho : engineOffer s = some e) :
    Followed (grantEngine e s).engine (liveCommits s.issue ++ [e.ref]) (e.markIssued e) := by
  obtain ⟨-, hs, hd, -, hcase⟩ := h.offered ho
  have hnd : s.engine.retry.Nodup := (reissuedWords_nodup h.distinct _).sublist (h.retry _ hd)
  have hd' : (grantEngine e s).engine.state = .draining e.group := by rw [grantEngine_state, hd]
  have hin : e.ref ∈ liveCommits s.issue ++ [e.ref] := by simp
  have hout : e.addr ∉ (grantEngine e s).engine.retry := by rw [grantEngine_retry]; exact hnd.not_mem_erase
  rcases hcase with ⟨hi, -⟩ | ⟨hi, -⟩
  · rw [Entry.markIssued_eq, if_pos ⟨Entry.at_ref.mpr ⟨rfl, hs⟩, hi⟩]
    exact ⟨fun hn => (by cases hn), fun _ => ⟨hs, hd'⟩, fun _ => ⟨hin, hout⟩, fun hn => (by cases hn)⟩
  · rw [Entry.markIssued_eq, if_neg (by simp [hi])]
    exact ⟨fun hn => (by simp [hi] at hn), fun _ => ⟨hs, hd'⟩, fun _ => ⟨hin, hout⟩, fun _ => iff_of_true hin hout⟩

/-- Every other entry is followed as before (R67). -/
theorem EngineLaw.followed_beside {s : State} (h : EngineLaw s) {e x : Entry} (ho : engineOffer s = some e)
    (hx : x ∈ s.queue) (hne : x ≠ e) :
    Followed (grantEngine e s).engine (liveCommits s.issue ++ [e.ref]) (e.markIssued x) := by
  obtain ⟨he, hs, hd, -, -⟩ := h.offered ho
  have hother : x.role = .sealed → x.ref ≠ e.ref := fun hr href => hne (h.ref_inj hx he hr hs href)
  have hsame : e.markIssued x = x := if_neg fun hc => by
    obtain ⟨href, hr⟩ := Entry.at_ref.mp hc.1
    exact hother hr href
  rw [hsame]
  refine (h.entries x hx).of_same (fun hx => by rw [grantEngine_state, hx]) (fun hr => by simp [hother hr])
    fun hr hxd => ?_
  have hg : x.group = e.group := by simpa [hd] using hxd.symm
  rw [grantEngine_retry, List.mem_erase_of_ne fun ha => hother hr (Entry.ref_eq_iff.mpr ⟨hg, ha⟩)]

theorem EngineLaw.offers {s : State} (h : EngineLaw s) {e : Entry} (ho : engineOffer s = some e) :
    EngineLaw (grantEngine e s) := by
  obtain ⟨he, hs, hd, hnl, -⟩ := h.offered ho
  refine h.of_marks (f := e.markIssued) e.markIssued_key (grantEngine_queue e s) (by simp [grantEngine])
    (by simp [grantEngine]) (grantEngine_state e s) (by simp [hd]) ?_ (fun x hx => ?_) (fun x hx => ?_) fun g hg => ?_
  · rw [grantEngine_live]
    exact h.once.append (List.nodup_singleton _) (by simpa using hnl)
  · rw [grantEngine_live, List.mem_append, List.mem_singleton] at hx
    rcases hx with hx | rfl
    · exact h.commits x hx
    · exact ⟨e, he, rfl, hs, hd⟩
  · rw [grantEngine_live]
    by_cases hxe : x = e
    · rw [hxe]; exact h.followed_granted ho
    · exact h.followed_beside ho hx hxe
  · rw [grantEngine_retry, grantEngine_queue, reissuedWords_markIssued]
    exact List.erase_sublist.trans (h.retry g hg)

/-- What the answer to a commit write finds under the law: the entry it was issued for, which is issued or reissued, in
the drain, and not to be written again; the write is outstanding no more (R39, R66). -/
theorem EngineLaw.answered {s : State} (h : EngineLaw s) {r : IssueRec} {rest : List IssueRec} {x : EntryRef} {e : Entry}
    (hi : s.issue = r :: rest) (hl : r.Live) (hx : r.entry = some x)
    (hf : s.queue.find? (Entry.at x.group .sealed x.addr) = some e) :
    (e ∈ s.queue ∧ e.ref = some x ∧ e.role = .sealed) ∧ e.issue ≠ .notIssued ∧ s.engine.state = .draining e.group ∧
      e.addr ∉ s.engine.retry ∧ liveCommits s.issue = e.ref :: liveCommits rest ∧ e.ref ∉ liveCommits rest := by
  obtain ⟨href, hs, he⟩ := Entry.ref_of_found hf
  have hcons : liveCommits s.issue = e.ref :: liveCommits rest := by rw [hi, liveCommits_cons_live hl, hx, href]
  have hin : e.ref ∈ liveCommits s.issue := by rw [hcons]; exact List.mem_cons_self
  obtain ⟨f1, f2, f3, f4⟩ := h.entries e he
  have hn : e.issue ≠ .notIssued := fun hn => f1 hn hs hin
  refine ⟨⟨he, href, hs⟩, hn, (f2 hn).2, ?_, hcons, (List.nodup_cons.mp (hcons ▸ h.once)).1⟩
  cases hc : e.issue with
  | notIssued => exact absurd hc hn
  | issued => exact (f3 hc).2
  | reissued => exact (f4 hc).mp hin

@[simp] theorem departRecord_queue (r : IssueRec) (rest : List IssueRec) (s : State) :
    (departRecord r rest s).queue = s.queue := rfl
@[simp] theorem departRecord_issue (r : IssueRec) (rest : List IssueRec) (s : State) :
    (departRecord r rest s).issue = rest := rfl
@[simp] theorem departRecord_groups (r : IssueRec) (rest : List IssueRec) (s : State) :
    (departRecord r rest s).groups = s.groups := rfl
@[simp] theorem departRecord_engine_state (r : IssueRec) (rest : List IssueRec) (s : State) :
    (departRecord r rest s).engine.state = s.engine.state := by unfold departRecord; split <;> rfl
@[simp] theorem departRecord_engine_retry (r : IssueRec) (rest : List IssueRec) (s : State) :
    (departRecord r rest s).engine.retry = s.engine.retry := by unfold departRecord; split <;> rfl

/-- The entry found, and the queue without it. -/
theorem eraseP_of_find {q : List Entry} {p : Entry → Bool} {e : Entry} (h : q.find? p = some e) :
    ∃ l1 l2, q = l1 ++ e :: l2 ∧ q.eraseP p = l1 ++ l2 := by
  obtain ⟨hp, l1, l2, hq, hl⟩ := List.find?_eq_some_iff_append.mp h
  refine ⟨l1, l2, hq, ?_⟩
  rw [hq, List.eraseP_append_right _ fun b hb => by simpa using hl b hb, List.eraseP_cons_of_pos hp]

/-- A word that is not in the *retry list* does not matter to its order. -/
theorem sublist_without {l1 l2 : List Entry} {e : Entry} {k : Fin 4} {retry : List Addr} (hn : e.addr ∉ retry)
    (h : retry.Sublist (reissuedWords (l1 ++ e :: l2) k)) : retry.Sublist (reissuedWords (l1 ++ l2) k) := by
  have hkeep : retry.filter (fun a => a != e.addr) = retry := List.filter_eq_self.mpr fun a ha => by
    exact bne_iff_ne.mpr fun hae => hn (hae ▸ ha)
  have hdrop : (reissuedWords (l1 ++ e :: l2) k).filter (fun a => a != e.addr) =
      (reissuedWords (l1 ++ l2) k).filter (fun a => a != e.addr) := by
    unfold reissuedWords
    rw [List.filter_append, List.filter_append, List.filter_cons]
    split <;> simp
  rw [← hkeep]
  exact (h.filter _).trans (hdrop ▸ List.filter_sublist)

theorem EngineLaw.removes {s : State} (h : EngineLaw s) {r : IssueRec} {rest : List IssueRec} {x : EntryRef} {e : Entry}
    (hi : s.issue = r :: rest) (hl : r.Live) (hx : r.entry = some x)
    (hf : s.queue.find? (Entry.at x.group .sealed x.addr) = some e) :
    EngineLaw (removeSealed x.group x.addr (departRecord r rest s)) := by
  obtain ⟨⟨he, href, hs⟩, -, hd, hretry, hlive, hout⟩ := h.answered hi hl hx hf
  obtain ⟨l1, l2, hq, hq'⟩ := eraseP_of_find hf
  have hsub : (l1 ++ l2).Sublist s.queue := by rw [hq]; simp
  have hne : ∀ y ∈ l1 ++ l2, y ≠ e := by
    have hnd := h.distinct.of_map
    rw [hq, List.nodup_middle, List.nodup_cons] at hnd
    rintro y hy rfl
    exact hnd.1 hy
  have hqueue : (removeSealed x.group x.addr (departRecord r rest s)).queue = l1 ++ l2 := hq'
  have hsealed : ∀ k, ((removeSealed x.group x.addr (departRecord r rest s)).group k).hasSealed =
      (s.group k).hasSealed := by
    intro k
    by_cases hk : k = x.group <;> simp [State.group, hk]
  obtain ⟨-, hnd⟩ := List.nodup_cons.mp (hlive ▸ h.once)
  refine ⟨by rw [hqueue]; exact h.distinct.sublist (hsub.map _), h.requests.congr hsealed rfl (by simp), hnd,
    fun y hy => ?_, fun z hz => ?_, fun hidle => ?_, fun k hk => ?_, fun y hy hr => ?_⟩
  · rw [hqueue] at hy
    have hother : y.role = .sealed → y.ref ≠ e.ref := fun hr hye => hne y hy (h.ref_inj (hsub.subset hy) he hr hs hye)
    refine (h.entries y (hsub.subset hy)).of_same (fun hd => by simpa using hd) (fun hr => ?_) (fun _ _ => by simp)
    rw [hlive, List.mem_cons, or_iff_right (hother hr)]
    rfl
  · have hz' : z ∈ liveCommits rest := hz
    obtain ⟨y, hy, hzy, hr, hyd⟩ := h.commits z (by rw [hlive]; exact List.mem_cons_of_mem _ hz')
    have hye : y ≠ e := fun hye => hout (hye ▸ hzy ▸ hz')
    refine ⟨y, ?_, hzy, hr, by simpa using hyd⟩
    rw [hqueue]
    rw [hq] at hy
    simpa [hye] using hy
  · simp [hd] at hidle
  · have hk' : s.engine.state = .draining k := by simpa using hk
    rw [hqueue, removeSealed_engine, departRecord_engine_retry]
    exact sublist_without hretry (hq ▸ h.retry k hk')
  · rw [hsealed]
    exact h.sealed y (hsub.subset (hqueue ▸ hy)) hr

theorem mem_retryWith {q : List Entry} {g : Fin 4} {a b : Addr} {retry : List Addr} : b ∈ retryWith q g a retry ↔
    ∃ e ∈ q, e.group = g ∧ e.role = .sealed ∧ (e.addr = a ∨ e.addr ∈ retry) ∧ e.addr = b := by
  simp only [retryWith, List.mem_map, List.mem_filter, Bool.and_eq_true, Bool.or_eq_true, beq_iff_eq,
    List.contains_eq_mem, decide_eq_true_eq, and_assoc]

theorem filter_sublist_of_imp {l : List Entry} {p q : Entry → Bool} (h : ∀ x ∈ l, p x = true → q x = true) :
    (l.filter p).Sublist (l.filter q) := by
  have hpq : l.filter p = (l.filter q).filter p := by
    rw [List.filter_filter]
    exact List.filter_congr fun x hx => by cases hp : p x <;> simp [h x hx, hp]
  rw [hpq]
  exact List.filter_sublist

/-- The *retry list* with one more word stands in queue order once that word's entry is reissued (R62, R70). -/
theorem retryWith_sublist {s : State} (h : EngineLaw s) {g : Fin 4} (a : Addr) (hg : s.engine.state = .draining g) :
    (retryWith s.queue g a s.engine.retry).Sublist (reissuedWords (s.queue.map (Entry.markReissued g a)) g) := by
  have haddr : Entry.addr ∘ Entry.markReissued g a = Entry.addr := by
    funext y; simp only [Function.comp_apply, Entry.markReissued]; split <;> rfl
  have hmarked : ∀ y ∈ s.queue, (y.group == g && y.role == .sealed && (y.addr == a || s.engine.retry.contains y.addr)) =
      true → (y.markReissued g a).reissuedOf g = true := by
    intro y hy hp
    simp only [Bool.and_eq_true, Bool.or_eq_true, beq_iff_eq, List.contains_eq_mem, decide_eq_true_eq] at hp
    obtain ⟨⟨hyg, hyr⟩, hya⟩ := hp
    have hi : (y.markReissued g a).issue = .reissued := by
      unfold Entry.markReissued
      split
      next => rfl
      next hat =>
        have hne : y.addr ≠ a := fun ha => hat (by simp [Entry.at, hyg, hyr, ha])
        obtain ⟨z, hz, hzg, hzr, hzi, hza⟩ := mem_reissuedWords.mp ((h.retry g hg).subset (hya.resolve_left hne))
        obtain rfl := h.unique hy hz (Entry.key_eq_iff.mpr ⟨hyg.trans hzg.symm, hyr.trans hzr.symm, hza.symm⟩)
        exact hzi
    obtain ⟨kg, kr, -⟩ := Entry.key_eq_iff.mp (y.markReissued_key g a)
    simp [Entry.reissuedOf, kg, kr, hyg, hyr, hi]
  unfold retryWith reissuedWords
  rw [List.filter_map, List.map_map, haddr]
  refine List.Sublist.map _ ?_
  exact filter_sublist_of_imp hmarked

@[simp] theorem reissue_engine_state (g : Fin 4) (a : Addr) (s : State) :
    (reissue g a s).engine.state = s.engine.state := rfl
@[simp] theorem reissue_engine_retry (g : Fin 4) (a : Addr) (s : State) :
    (reissue g a s).engine.retry = retryWith s.queue g a s.engine.retry := rfl

/-- The entry of the first ERROR is to be written again, and has no write outstanding (R70). -/
theorem EngineLaw.followed_reissued {s : State} (h : EngineLaw s) {r : IssueRec} {rest : List IssueRec} {x : EntryRef}
    {e : Entry} (hi : s.issue = r :: rest) (hl : r.Live) (hx : r.entry = some x)
    (hf : s.queue.find? (Entry.at x.group .sealed x.addr) = some e) :
    Followed (reissue x.group x.addr (departRecord r rest s)).engine (liveCommits rest)
      (e.markReissued x.group x.addr) := by
  obtain ⟨⟨he, href, hs⟩, -, hd, -, -, hout⟩ := h.answered hi hl hx hf
  obtain rfl : (⟨e.group, e.addr⟩ : EntryRef) = x := Option.some.inj href
  have hin : e.addr ∈ retryWith s.queue e.group e.addr s.engine.retry :=
    mem_retryWith.mpr ⟨e, he, rfl, hs, .inl rfl, rfl⟩
  have hmark : e.markReissued e.group e.addr = { e with issue := .reissued } := if_pos (Entry.at_ref.mpr ⟨rfl, hs⟩)
  rw [hmark]
  refine ⟨fun hn => (by cases hn), fun _ => ⟨hs, by simpa using hd⟩, fun hn => (by cases hn), fun _ => ?_⟩
  exact iff_of_false hout (by simpa using hin)

/-- Every other entry is followed as before (R70). -/
theorem EngineLaw.followed_aside {s : State} (h : EngineLaw s) {r : IssueRec} {rest : List IssueRec} {x : EntryRef}
    {e y : Entry} (hi : s.issue = r :: rest) (hl : r.Live) (hx : r.entry = some x)
    (hf : s.queue.find? (Entry.at x.group .sealed x.addr) = some e) (hy : y ∈ s.queue) (hne : y ≠ e) :
    Followed (reissue x.group x.addr (departRecord r rest s)).engine (liveCommits rest)
      (y.markReissued x.group x.addr) := by
  obtain ⟨⟨he, href, hs⟩, -, hd, -, hlive, -⟩ := h.answered hi hl hx hf
  obtain rfl : (⟨e.group, e.addr⟩ : EntryRef) = x := Option.some.inj href
  have hother : y.role = .sealed → y.ref ≠ e.ref := fun hr hye => hne (h.ref_inj hy he hr hs hye)
  have hmark : y.markReissued e.group e.addr = y := if_neg fun hat => by
    obtain ⟨hye, hr⟩ := Entry.at_ref.mp hat
    exact hother hr hye
  rw [hmark]
  refine (h.entries y hy).of_same (fun hyd => by simpa using hyd)
    (fun hr => by rw [hlive, List.mem_cons, or_iff_right (hother hr)]) fun hr hyd => ?_
  have hyg : y.group = e.group := by simpa [hd] using hyd.symm
  have hya : y.addr ≠ e.addr := fun ha => hother hr (Entry.ref_eq_iff.mpr ⟨hyg, ha⟩)
  rw [reissue_engine_retry, departRecord_queue, departRecord_engine_retry, mem_retryWith]
  refine ⟨?_, fun hin => ⟨y, hy, hyg, hr, .inr hin, rfl⟩⟩
  rintro ⟨z, -, -, -, hz, hzy⟩
  rw [hzy] at hz
  exact hz.resolve_left hya

theorem EngineLaw.reissues {s : State} (h : EngineLaw s) {r : IssueRec} {rest : List IssueRec} {x : EntryRef} {e : Entry}
    (hi : s.issue = r :: rest) (hl : r.Live) (hx : r.entry = some x)
    (hf : s.queue.find? (Entry.at x.group .sealed x.addr) = some e) :
    EngineLaw (reissue x.group x.addr (departRecord r rest s)) := by
  obtain ⟨⟨-, href, -⟩, -, hd, -, hlive, -⟩ := h.answered hi hl hx hf
  have hg : e.group = x.group := congrArg EntryRef.group (Option.some.inj href)
  obtain ⟨-, hnd⟩ := List.nodup_cons.mp (hlive ▸ h.once)
  refine h.of_marks (f := Entry.markReissued x.group x.addr) (Entry.markReissued_key _ _) rfl rfl rfl (by simp)
    (by simp [hd]) hnd (fun z hz => h.commits z (by rw [hlive]; exact List.mem_cons_of_mem _ hz)) (fun y hy => ?_)
    fun k hk => ?_
  · by_cases hye : y = e
    · rw [hye]; exact h.followed_reissued hi hl hx hf
    · exact h.followed_aside hi hl hx hf hy hye
  · obtain rfl : x.group = k := by rw [hd, hg] at hk; exact EngineState.draining.inj hk
    rw [reissue_engine_retry, departRecord_engine_retry]
    exact retryWith_sublist h x.addr hk

/-- Under the law no commit write is outstanding but for an issued entry (R39, R66). -/
theorem EngineLaw.no_strays {s : State} (h : EngineLaw s) {r : IssueRec} {rest : List IssueRec}
    (hi : s.issue = r :: rest) (hl : r.Live)
    (hx : ∀ x, r.entry = some x → ∀ e, s.queue.find? (Entry.at x.group .sealed x.addr) = some e → e.issue = .notIssued) :
    False := by
  obtain ⟨e, he, hre, hr, -⟩ := h.commits r.entry (by rw [hi, liveCommits_cons_live hl]; exact List.mem_cons_self)
  cases hf : s.queue.find? (Entry.at e.group .sealed e.addr) with
  | none => exact List.find?_eq_none.mp hf e he (Entry.at_ref.mpr ⟨rfl, hr⟩)
  | some y => exact (h.answered (x := ⟨e.group, e.addr⟩) hi hl hre hf).2.1 (hx _ hre y hf)

theorem EngineLaw.of_reset {t : State} (hq : t.queue = []) (hc : t.commitReq = []) (hs : t.engine.state = .idle)
    (hr : t.engine.retry = []) (hi : ∀ r ∈ t.issue, ¬ r.Live) (hg : ∀ g : Fin 4, (t.group g).hasSealed = false) :
    EngineLaw t := by
  have hlive := liveCommits_none hi
  refine ⟨by simp [hq], ⟨by simp [hc], fun g => ?_⟩, by simp [hlive], fun e he => ?_, fun x hx => ?_, fun _ => hr,
    fun g _ => by simp [hr], fun e he => ?_⟩
  · simp [hg, hc, hs]
  · simp [hq] at he
  · simp [hlive] at hx
  · simp [hq] at he

/-- Every move keeps the law of the engine. -/
theorem EngineLaw.move {s t : State} (h : EngineLaw s) (hm : PathMove s t) : EngineLaw t := by
  cases hm with
  | quiet hq hg _ hc he hi =>
    exact h.congr hq (fun g => by rw [State.group_congr hg]) hc (by rw [he]) (by rw [he]) (by rw [hi])
  | @record g f hf _ =>
    refine h.congr rfl (fun k => ?_) rfl rfl rfl rfl
    rw [State.group_modGroup]
    split
    next hk => rw [hf, hk]
    next => rfl
  | window => exact h.congr rfl (fun _ => rfl) rfl rfl rfl rfl
  | admits g r => exact h.admits g r
  | discards g => exact h.discards g
  | seals hg _ => exact h.seals hg
  | begins he hq => exact h.begins he hq
  | completes he hq => exact h.completes he hq
  | places hr _ =>
    refine h.congr rfl (fun _ => rfl) rfl rfl rfl ?_
    rw [State.placeRecord_issue, liveCommits_append, liveCommits_cons_other fun hl => hr hl.1]
    exact List.append_nil _
  | offers ho => exact h.offers ho
  | departs hi hl =>
    refine h.congr rfl (fun _ => rfl) rfl (by simp) (by simp) ?_
    rw [departRecord_issue, hi, liveCommits_cons_other hl]
  | removes hi hl hx hf => exact h.removes hi hl hx hf
  | reissues hi hl hx hf _ => exact h.reissues hi hl hx hf
  | strays hi hl hx => exact (h.no_strays hi hl hx).elim
  | resets hq hc hs hr hi hg => exact .of_reset hq hc hs hr hi hg

end Sys2Proof.Machine

namespace Sys2Proof.Machine

/-! ## Every step is a sequence of moves -/

/-- A sequence of moves leads from `s` to `t`. -/
def Moves : State → State → Prop := Relation.ReflTransGen PathMove

theorem Moves.refl (s : State) : Moves s s := Relation.ReflTransGen.refl

theorem Moves.trans {s t u : State} (h1 : Moves s t) (h2 : Moves t u) : Moves s u := Relation.ReflTransGen.trans h1 h2

theorem PathMove.moves {s t : State} (h : PathMove s t) : Moves s t := Relation.ReflTransGen.single h

/-- A step that moves nothing of what the engine, the staging queue and the issue list hold. -/
theorem moves_quiet {s t : State} (hq : t.queue = s.queue) (hg : t.groups = s.groups) (hw : t.windows = s.windows)
    (hc : t.commitReq = s.commitReq) (he : t.engine = s.engine) (hi : t.issue = s.issue) : Moves s t :=
  (PathMove.quiet hq hg hw hc he hi).moves

/-- What every move keeps, a sequence of moves keeps. -/
theorem Moves.keep {P : State → Prop} (hP : ∀ {s t : State}, P s → PathMove s t → P t) {s t : State} (h : P s)
    (hm : Moves s t) : P t := by
  induction hm with
  | refl => exact h
  | tail _ hm ih => exact hP ih hm

theorem foldl_moves {α : Type} {f : State → α → State} (hf : ∀ s a, Moves s (f s a)) (l : List α) (s : State) :
    Moves s (l.foldl f s) := by
  induction l generalizing s with
  | nil => exact .refl s
  | cons a l ih => exact (hf s a).trans (ih _)

/-! ### Ports and admission -/

theorem setHead_moves (p : PortId) (ph : SlotPhase) (s : State) : Moves s (s.setHead p ph) :=
  moves_quiet (by simp) (by simp) (by simp) (by simp) (by simp) (by simp)

theorem setPort_moves (p : PortId) (x : Port) (s : State) : Moves s (s.setPort p x) :=
  moves_quiet (by simp) (by simp) (by simp) (by simp) (by simp) (by simp)

theorem cause_moves (f : EventFlag) (s : State) : Moves s (s.cause f) := moves_quiet rfl rfl rfl rfl rfl rfl

theorem offerAdmission_moves (cls : ReqClass) (g : Fin 4) (policy : FullPolicy) (r : Request) (s : State) :
    Moves s (offerAdmission cls g policy r s) := by
  unfold offerAdmission
  split
  · exact (PathMove.admits g r).moves.trans (setHead_moves _ _ _)
  · exact setHead_moves _ _ s

theorem retryAdmission_moves (s : State) : Moves s (retryAdmission s) := by
  unfold retryAdmission
  split
  · split
    · exact (PathMove.admits _ _).moves.trans (setHead_moves _ _ _)
    · exact .refl s
  · exact .refl s

theorem expireHold_moves (s : State) : Moves s (expireHold s) := by
  unfold expireHold
  split
  · split
    · split
      · exact setHead_moves _ _ s
      · exact .refl s
    · exact .refl s
  · exact .refl s

theorem tickHold_moves (s : State) : Moves s (tickHold s) := by
  unfold tickHold
  split
  · split
    · split
      · exact expireHold_moves s
      · exact setHead_moves _ _ s
    · exact .refl s
  · exact .refl s

theorem handleHost_moves (cls : ReqClass) (r : Request) (s : State) : Moves s (handleHost cls r s) := by
  cases cls with
  | bypassed => exact setHead_moves _ _ s
  | outside => exact setHead_moves _ _ s
  | locked n => cases hk : r.kind <;> simp only [handleHost, hk] <;> exact setHead_moves _ _ s
  | staged n g fwd policy =>
    by_cases hd : (s.group g).state = .disabled
    · rw [handleHost_disabled r hd]
      exact setHead_moves _ _ s
    · cases hk : r.kind with
      | read =>
        rw [handleHost_read hd hk]
        split <;> exact setHead_moves _ _ s
      | write =>
        by_cases hst : (s.group g).state = .stopping
        · rw [handleHost_stopping hst hk]
          exact setHead_moves _ _ s
        · rw [handleHost_write (by cases h : (s.group g).state <;> simp_all) hk]
          exact offerAdmission_moves _ _ _ _ s

theorem handleConsumer_moves (cls : ReqClass) (r : Request) (s : State) : Moves s (handleConsumer cls r s) := by
  unfold handleConsumer
  split
  · exact setHead_moves _ _ s
  · split <;> exact setHead_moves _ _ s
  · exact setHead_moves _ _ s

theorem processHead_moves (p : PortId) (s : State) : Moves s (processHead p s) := by
  unfold processHead
  split
  next sl _ =>
    split
    next =>
      refine Moves.trans (t := observe (PortId.requester p) sl.req.kind (monitoredWords sl.req) s)
        (moves_quiet (by simp) (by simp) (by simp) (by simp) (by simp) (by simp)) ?_
      unfold examine
      split
      · exact setHead_moves _ _ _
      · cases p
        · exact handleHost_moves _ _ _
        · exact handleConsumer_moves _ _ _
    all_goals exact .refl s
  next => exact .refl s

theorem reexamineHost_moves (g : Fin 4) (s : State) : Moves s (reexamineHost g s) := by
  unfold reexamineHost
  split
  · split
    · split
      · exact setHead_moves _ _ s
      · split
        · split
          · exact offerAdmission_moves _ _ _ _ s
          · split
            · exact setHead_moves _ _ s
            · exact .refl s
        · exact .refl s
      all_goals exact .refl s
    all_goals exact .refl s
  · exact .refl s

theorem reexamineConsumer_moves (g : Fin 4) (s : State) : Moves s (reexamineConsumer g s) := by
  rcases reexamineConsumer_cases g s with ⟨h, -⟩ | ⟨_, _, -, h⟩ <;> rw [h]
  · exact .refl s
  · exact setHead_moves _ _ s

theorem causeOf_moves (c : RespCode) (s : State) : Moves s (causeOf c s) := by
  unfold causeOf
  split
  · exact .refl s
  · exact cause_moves _ s

theorem deliver_moves (p : PortId) (s : State) : Moves s (deliver p s) := by
  unfold deliver
  split
  · exact .refl s
  · split
    · exact (setPort_moves _ _ s).trans (causeOf_moves _ _)
    all_goals exact .refl s

theorem arrive_moves (p : PortId) (r : Request) (s : State) : Moves s (arrive p r s) := by
  unfold arrive
  split <;> exact setPort_moves _ _ s

/-! ### Seals, completions and starts -/

theorem releaseHeld_moves (g : Fin 4) (s : State) : Moves s (releaseHeld g s) := by
  obtain ⟨p, hp⟩ := releaseHeld_eq g s
  rw [hp]
  exact moves_quiet rfl rfl rfl rfl rfl rfl

theorem convertHold_moves (g : Fin 4) (s : State) : Moves s (convertHold g s) := by
  obtain ⟨p, hp⟩ := convertHold_eq g s
  rw [hp]
  exact moves_quiet rfl rfl rfl rfl rfl rfl

theorem leavingCheck_moves (s : State) : Moves s (leavingCheck s) := by
  obtain ⟨m, e, h⟩ := leavingCheck_eq s
  rw [h]
  exact moves_quiet rfl rfl rfl rfl rfl rfl

/-- A group without a sealed epoch may reach DISABLED (R18, R58). -/
theorem reachDisabled_moves {g : Fin 4} {s : State} (h : (s.group g).hasSealed = false) :
    Moves s (reachDisabled g s) := by
  have hstate : Moves s (s.inState g .disabled) := (PathMove.record rfl fun hs => by simp [h] at hs).moves
  exact (hstate.trans (releaseHeld_moves g _)).trans (leavingCheck_moves _)

/-- A drain with no entry left ends, with the final seal or the end of a STOPPING group (R58, R74). -/
theorem finishDrain_moves {g : Fin 4} {s : State} (he : s.engine.state = .draining g)
    (hq : hasSealedEntry s.queue g = false) : Moves s (finishDrain g s) := by
  have hcg : (completeCore g s).group g = (s.group g).onCompletion := by simp [State.group]
  obtain ⟨c1, c2, c3⟩ := completeStopping_spec g (completeCore g s)
  have hno : ((completeCore g s).group g).hasSealed = false := by rw [hcg]; rfl
  refine (PathMove.completes he hq).moves.trans ?_
  unfold finishDrain
  by_cases hst : ((completeCore g s).group g).state = .stopping
  · rcases Nat.eq_zero_or_pos ((completeCore g s).group g).openCount with ho | ho
    · rw [c3 hst ho]
      exact reachDisabled_moves hno
    · rw [c2 hst ho]
      exact (PathMove.seals hno (by simp [hst])).moves
  · rw [c1 hst]
    exact .refl _

/-- The start test is the starts it makes and the completions they bring (R63, R75). -/
theorem testStart_moves (s : State) : Moves s (testStart s) := by
  obtain ⟨u, hu⟩ := startTest_total s
  rw [testStart_of hu]
  induction hu with
  | rests => exact .refl _
  | starts he hq => exact (PathMove.begins he hq).moves
  | @completes s u g rest he hq _ hs _ _ ih =>
    rw [← finishDrain_eq] at ih
    exact ((PathMove.begins he hq).moves.trans (finishDrain_moves (s := beginDrain g rest s) rfl hs)).trans ih

theorem sealGroup_moves {g : Fin 4} {s : State} (hno : (s.group g).hasSealed = false)
    (hon : (s.group g).state ≠ .disabled) : Moves s (sealGroup g s) :=
  (PathMove.seals hno hon).moves.trans (testStart_moves _)

theorem testCompletion_moves (s : State) : Moves s (testCompletion s) := by
  obtain ⟨c1, c2, c3⟩ := testCompletion_spec s
  cases he : s.engine.state with
  | idle => rw [c1 he]; exact .refl s
  | draining g =>
    cases hd : drainDone g s with
    | false => rw [c2 g he hd]; exact .refl s
    | true =>
      rw [c3 g he hd]
      simp only [drainDone, Bool.and_eq_true, Bool.not_eq_true'] at hd
      exact (finishDrain_moves he hd.1).trans (testStart_moves _)

theorem boundary_moves (g : Fin 4) (s : State) : Moves s (boundary g s) := by
  obtain ⟨u, hu⟩ := boundaryGives_total g s
  obtain ⟨b1, b2, b3, b4⟩ := boundary_spec g s
  cases hu with
  | ignored hr => rw [b1 hr]; exact .refl s
  | overrun hr hh =>
    rw [b2 hr hh]
    exact (PathMove.record (f := GroupRec.countOverrun) rfl fun _ => id).moves.trans (cause_moves _ _)
  | passes hr hh ho he => rw [b3 hr hh ho he]; exact .refl s
  | seals hr hh ho =>
    rw [b4 hr hh ho]
    exact sealGroup_moves hh (by simp [hr])

theorem disableGroup_moves (g : Fin 4) (s : State) : Moves s (disableGroup g s) := by
  unfold disableGroup
  split
  next h => exact reachDisabled_moves h.2.2
  next =>
    have hstop : Moves s (convertHold g (s.inState g .stopping)) :=
      (PathMove.record rfl fun _ h => (by cases h)).moves.trans (convertHold_moves g _)
    dsimp only
    split
    next h =>
      refine hstop.trans ?_
      obtain ⟨p, hp⟩ := convertHold_eq g (s.inState g .stopping)
      refine sealGroup_moves ?_ ?_ <;> rw [hp]
      · simpa [State.group] using h.1
      · simp [State.group]
    next => exact hstop

theorem windDown_moves (s : State) (g : Fin 4) : Moves s (windDown s g) := by
  unfold windDown
  split
  · exact disableGroup_moves g s
  · exact disableGroup_moves g s
  all_goals exact .refl s

/-! ### Grants and answers -/

/-- The arbiter chooses a requester that waits (R134). -/
theorem chosen_waits {s : State} {r : Requester} (h : chosen s = some r) : waits s r = true := by
  unfold chosen at h
  split at h
  · exact List.find?_some h
  · cases h

theorem grantPort_moves {p : PortId} {sl : Slot} {f : Bool} {s : State}
    (hfence : p = .cp → fenced s sl.req = false) : Moves s (grantPort p sl f s) := by
  have hpointer : Moves s { s with pointer := PortId.requester p } := moves_quiet rfl rfl rfl rfl rfl rfl
  refine (hpointer.trans (PathMove.places ?_ ?_).moves).trans (setHead_moves p .issued _)
  · cases p <;> simp [PortId.requester]
  · cases p
    · simp [PortId.requester]
    · exact fun _ => hfence rfl

theorem grant_moves (s : State) : Moves s (grant s) := by
  unfold grant
  split
  · exact .refl s
  · split
    · exact grantPort_moves (by simp)
    · exact .refl s
  next hc =>
    split
    next sl f hm =>
      have hw := chosen_waits hc
      simp only [waits, hm, Option.any_some, Bool.not_eq_true'] at hw
      exact grantPort_moves fun _ => hw
    next => exact .refl s
  · split
    next ho => exact (PathMove.offers ho).moves
    next => exact .refl s

/-- The answer to a commit write of a drain, once its record has left the list (R69 to R71). -/
theorem commitAnswer_moves {r : IssueRec} {rest : List IssueRec} {x : EntryRef} {s : State} (ans : AnswerStatus)
    (hi : s.issue = r :: rest) (hl : r.Live) (hx : r.entry = some x) :
    Moves s (commitAnswer x ans (departRecord r rest s)) := by
  have strays : (∀ e, s.queue.find? (Entry.at x.group .sealed x.addr) = some e → e.issue = .notIssued) →
      Moves s (departRecord r rest s) := fun h =>
    (PathMove.strays hi hl fun y hy => by cases hx.symm.trans hy; exact h).moves
  have settle : ∀ {t : State}, Moves s t → Moves s (testCompletion (retryAdmission t)) := fun h =>
    (h.trans (retryAdmission_moves _)).trans (testCompletion_moves _)
  unfold commitAnswer
  split
  next hf => exact strays fun e he => by rw [departRecord_queue] at hf; simp [hf] at he
  next e hf =>
    have removed : Moves s (removeSealed x.group x.addr (departRecord r rest s)) := (PathMove.removes hi hl hx hf).moves
    split
    · exact settle removed
    · exact settle ((removed.trans (PathMove.record (f := GroupRec.onDrop x.addr) rfl fun _ => by
        unfold GroupRec.onDrop; dsimp only; split <;> simp).moves).trans (cause_moves _ _))
    next hi' => exact (PathMove.reissues hi hl hx hf hi').moves
    next hi' => exact strays fun y hy => by cases hf.symm.trans hy; exact hi'

theorem takeAnswer_moves (ans : AnswerStatus) (data : List Word) (s : State) : Moves s (takeAnswer ans data s) := by
  unfold takeAnswer
  split
  · exact .refl s
  next r rest hi =>
    have hport : ∀ p t, Moves t (answerPort p r ans data t) := by
      intro p t
      unfold answerPort
      split
      · exact .refl t
      · exact setPort_moves _ _ t
    unfold routeAnswer
    split
    next ho => exact (PathMove.departs hi fun hl => by simp [hl.2] at ho).moves
    next ho =>
      split
      next hr => exact (PathMove.departs hi fun hl => by simp [hl.1] at hr).moves.trans (hport .hp _)
      next hr => exact (PathMove.departs hi fun hl => by simp [hl.1] at hr).moves.trans (hport .cp _)
      next hr =>
        have hl : r.Live := ⟨hr, Bool.eq_false_iff.mpr ho⟩
        split
        next x hx => exact commitAnswer_moves ans hi hl hx
        next hx => exact (PathMove.strays hi hl fun x hx' => by simp [hx] at hx').moves

/-! ### Resets -/

theorem hardReset_moves (s : State) : Moves s (hardReset s) :=
  (PathMove.resets rfl rfl rfl rfl (fun r hr => by cases hr) fun g => by fin_cases g <;> rfl).moves

theorem releaseReset_moves (s : State) : Moves s (releaseReset s) := by
  unfold releaseReset
  split
  · exact moves_quiet rfl rfl rfl rfl rfl rfl
  · exact .refl s

theorem softReset_moves (s : State) : Moves s (softReset s) := by
  refine (PathMove.resets rfl rfl rfl rfl (fun r hr hl => ?_) fun g => ?_).moves
  · obtain ⟨x, -, rfl⟩ := List.mem_map.mp hr
    cases hl.2
  · simp [State.group, softReset, GroupRec.fresh]

/-! ### Time -/

theorem modTimer_moves (t : Fin 4) (f : Timer → Timer) (s : State) : Moves s (s.modTimer t f) :=
  moves_quiet rfl rfl rfl rfl rfl rfl

theorem countEvent_moves (t : Fin 4) (s : State) : Moves s (countEvent t s) := by
  have hstep := modTimer_moves t Timer.step s
  unfold countEvent
  split
  · split
    · exact hstep.trans (boundary_moves t _)
    · exact hstep
  · exact .refl s

theorem tickTimer_moves (t : Fin 4) (s : State) : Moves s (tickTimer t s) := by
  unfold tickTimer
  split
  · split
    · exact .refl s
    · split
      · exact (modTimer_moves t _ s).trans (countEvent_moves t _)
      · exact modTimer_moves t _ s
  · exact .refl s

theorem tickSink_moves (s : State) (k : TickSink) : Moves s (tickSink s k) := by
  cases k with
  | timer t => exact tickTimer_moves t s
  | hold => exact tickHold_moves s
  | line g => exact moves_quiet rfl rfl rfl rfl rfl rfl

theorem serviceTick_moves (order : List TickSink) (s : State) : Moves s (serviceTick order s) := by
  unfold serviceTick
  split
  · exact .refl s
  · exact Moves.trans (t := { s with tick := { s.tick with inForce := s.tick.divisor, count := 0 } })
      (moves_quiet rfl rfl rfl rfl rfl rfl) (foldl_moves tickSink_moves _ _)

theorem refclkEdge_moves (s : State) : Moves s (refclkEdge s) := by
  unfold refclkEdge
  split
  · exact .refl s
  · split
    · exact moves_quiet rfl rfl rfl rfl rfl rfl
    · exact Moves.trans (t := { s with freeIndex := s.freeIndex + 1 }) (moves_quiet rfl rfl rfl rfl rfl rfl)
        (serviceTick_moves _ _)

theorem syncActs_moves (t : Fin 4) (level : Bool) (s : State) : Moves s (syncActs t level s) := by
  have hcount : Moves s (if countsSync (s.timer t) level then countEvent t s else s) := by
    split
    · exact countEvent_moves t s
    · exact .refl s
  unfold syncActs
  dsimp only
  split
  · exact hcount.trans (boundary_moves t _)
  · exact hcount

theorem syncSettles_moves (t : Fin 4) (level : Bool) (s : State) : Moves s (syncSettles t level s) := by
  unfold syncSettles
  split
  · exact moves_quiet rfl rfl rfl rfl rfl rfl
  · split
    · exact moves_quiet rfl rfl rfl rfl rfl rfl
    · exact Moves.trans (t := { s with syncLine := s.syncLine.set t level, syncRef := s.syncRef.set t level })
        (moves_quiet rfl rfl rfl rfl rfl rfl) (syncActs_moves t level _)

theorem choldSet_moves (asserted : Bool) (s : State) : Moves s (choldSet asserted s) := by
  have hset : Moves s { s with chold := asserted } := moves_quiet rfl rfl rfl rfl rfl rfl
  unfold choldSet
  split
  · exact hset.trans (testStart_moves _)
  · exact hset

/-! ### Requests -/

theorem putWindow_moves (n : Fin 8) (v : WindowRaw) (s : State) : Moves s (putWindow n v s).state := by
  unfold putWindow
  split
  · exact .refl s
  · split
    · exact .refl s
    next hfree =>
      simp only [not_or, Bool.not_eq_false] at hfree
      split
      · exact .refl s
      · exact (PathMove.window hfree.1 hfree.2).moves

theorem putGroupCfg_moves (g : Fin 4) (v : GroupCfgRaw) (s : State) : Moves s (putGroupCfg g v s).state := by
  unfold putGroupCfg
  split
  · exact .refl s
  · split
    · exact .refl s
    · split
      · exact .refl s
      · exact (PathMove.record rfl fun _ => id).moves

theorem enableAction_moves (g : Fin 4) (s : State) : Moves s (enableAction g s).state := by
  unfold enableAction
  split
  · exact .refl s
  · split
    · exact .refl s
    next hd =>
      have henabled : Moves s (s.modGroup g GroupRec.enabled) :=
        (PathMove.record rfl fun _ _ => not_not.mp hd).moves
      exact (henabled.trans (reexamineHost_moves g _)).trans (reexamineConsumer_moves g _)

theorem disableAction_moves (g : Fin 4) (s : State) : Moves s (disableAction g s).state := by
  unfold disableAction
  split
  · exact disableGroup_moves g s
  · exact disableGroup_moves g s
  all_goals exact .refl s

theorem sealAction_moves (g : Fin 4) (s : State) : Moves s (sealAction g s).state := by
  have sealed : (s.group g).state ≠ .disabled →
      Moves s (if (s.group g).hasSealed then refuse .busy s else done (sealGroup g s)).state := by
    intro hon
    split
    · exact .refl s
    next hn => exact sealGroup_moves (Bool.eq_false_iff.mpr hn) hon
  unfold sealAction
  split
  · exact .refl s
  · exact .refl s
  next h => exact sealed (by simp [h])
  next h => exact sealed (by simp [h])

theorem discardAction_moves (g : Fin 4) (s : State) : Moves s (discardAction g s).state := by
  have discard : Moves s (retryAdmission (discardOpen g s)) :=
    (PathMove.discards g).moves.trans (retryAdmission_moves _)
  unfold discardAction
  split
  · exact .refl s
  · exact .refl s
  · exact discard
  · exact discard

theorem clearFaultAction_moves (g : Fin 4) (s : State) : Moves s (clearFaultAction g s).state :=
  (PathMove.record (f := GroupRec.clearFault) rfl fun _ => by
    unfold GroupRec.clearFault; dsimp only; split <;> simp).moves

theorem bypassAction_moves (arg : Byte) (s : State) : Moves s (bypassAction arg s).state := by
  unfold bypassAction
  split
  · exact .refl s
  · split
    · exact .refl s
    · split
      · exact moves_quiet rfl rfl rfl rfl rfl rfl
      · exact Moves.trans (t := { s with mode := .leaving }) (moves_quiet rfl rfl rfl rfl rfl rfl)
          (foldl_moves windDown_moves _ _)

theorem withIndex_moves {f : Fin 4 → State → Taken} (hf : ∀ g s, Moves s (f g s).state) (arg : Byte) (s : State) :
    Moves s (withIndex arg f s).state := by
  unfold withIndex
  split
  · exact .refl s
  · exact hf _ s

/-- An action or PUT that is refused, or else changes nothing of what the moves speak of. -/
theorem ite_moves {c : Prop} [Decidable c] {s : State} {x y : Taken} (hx : Moves s x.state) (hy : Moves s y.state) :
    Moves s (if c then x else y).state := by
  split
  · exact hx
  · exact hy

theorem timerStartAction_moves (t : Fin 4) (s : State) : Moves s (timerStartAction t s).state := by
  unfold timerStartAction
  exact ite_moves (.refl s) (modTimer_moves t _ s)

theorem timerStopAction_moves (t : Fin 4) (s : State) : Moves s (timerStopAction t s).state := by
  unfold timerStopAction
  exact ite_moves (modTimer_moves t _ s) (.refl s)

theorem putTimerCfg_moves (t : Fin 4) (v : TimerCfgRaw) (s : State) : Moves s (putTimerCfg t v s).state := by
  unfold putTimerCfg
  split
  · exact .refl s
  · exact ite_moves (.refl s) (ite_moves (.refl s) (ite_moves (modTimer_moves t _ s) (modTimer_moves t _ s)))

theorem putMonCfg_moves (m : Fin 4) (v : MonCfgRaw) (s : State) : Moves s (putMonCfg m v s).state := by
  unfold putMonCfg
  split
  · exact .refl s
  · exact moves_quiet rfl rfl rfl rfl rfl rfl

theorem putCmtCfg_moves (g : Fin 4) (v : CmtCfgRaw) (s : State) : Moves s (putCmtCfg g v s).state := by
  unfold putCmtCfg
  split
  · exact ite_moves (.refl s) (moves_quiet rfl rfl rfl rfl rfl rfl)
  · exact .refl s

theorem setCmtAction_moves (arg : Byte) (s : State) : Moves s (setCmtAction arg s).state := by
  unfold setCmtAction
  split
  · exact .refl s
  · exact moves_quiet rfl rfl rfl rfl rfl rfl

theorem readEffect_moves (o : Obj) (s : State) : Moves s (readEffect o s) := by
  unfold readEffect
  split
  · exact moves_quiet rfl rfl rfl rfl rfl rfl
  · exact .refl s

/-- Every request is a sequence of moves once its CRC byte is found correct (R167). -/
theorem requestOp_moves (c : Instr) (s : State) : Moves s (requestOp c s).state := by
  cases c with
  | get o crc => exact readEffect_moves o s
  | getCapture m crc => exact readEffect_moves (.capture m) s
  | putDevice v crc => exact ite_moves (.refl s) (moves_quiet rfl rfl rfl rfl rfl rfl)
  | putWindow n v crc => exact putWindow_moves n v s
  | putGroupCfg g v crc => exact putGroupCfg_moves g v s
  | putTimerCfg t v crc => exact putTimerCfg_moves t v s
  | putMonCfg m v crc => exact putMonCfg_moves m v s
  | putCmtCfg g v crc => exact putCmtCfg_moves g v s
  | activate arg crc =>
    exact ite_moves (.refl s) (ite_moves (.refl s) (moves_quiet rfl rfl rfl rfl rfl rfl))
  | bypass arg crc => exact bypassAction_moves arg s
  | softReset arg crc => exact ite_moves (.refl s) (softReset_moves s)
  | enableGroup arg crc => exact withIndex_moves enableAction_moves arg s
  | disableGroup arg crc => exact withIndex_moves disableAction_moves arg s
  | sealGroup arg crc => exact withIndex_moves sealAction_moves arg s
  | discard arg crc => exact withIndex_moves discardAction_moves arg s
  | clearFault arg crc => exact withIndex_moves clearFaultAction_moves arg s
  | timerStart arg crc => exact withIndex_moves timerStartAction_moves arg s
  | timerStop arg crc => exact withIndex_moves timerStopAction_moves arg s
  | timerPreset arg crc => exact withIndex_moves (fun t s => modTimer_moves t _ s) arg s
  | setCmt arg crc => exact setCmtAction_moves arg s
  | _ => exact moves_quiet rfl rfl rfl rfl rfl rfl

theorem takeRequest_moves (c : Instr) (body : List Byte) (crc : Byte) (s : State) :
    Moves s (takeRequest body crc (requestOp c) s) := by
  unfold takeRequest
  split
  · exact (requestOp_moves c s).trans (moves_quiet rfl rfl rfl rfl rfl rfl)
  · exact moves_quiet rfl rfl rfl rfl rfl rfl

/-- A byte clocked in is a sequence of moves, also when it completes a request (R164, R165). -/
theorem clockByte_moves (b : Byte) (s : State) : Moves s (clockByte b s) := by
  have take : ∀ bytes, Moves s (takeBytes bytes s) := by
    intro bytes
    unfold takeBytes
    split
    next c _ => exact takeRequest_moves c _ _ s
    next => exact .refl s
  unfold clockByte
  split
  · exact .refl s
  · exact .refl s
  · unfold receiveRequestByte
    split
    · exact take _
    · exact moves_quiet rfl rfl rfl rfl rfl rfl
  · exact moves_quiet rfl rfl rfl rfl rfl rfl
  · exact moves_quiet rfl rfl rfl rfl rfl rfl

theorem startFrame_moves (s : State) : Moves s (startFrame s) := by
  unfold startFrame
  split
  · split <;> exact moves_quiet rfl rfl rfl rfl rfl rfl
  all_goals exact .refl s

theorem endFrame_moves (s : State) : Moves s (endFrame s) := by
  unfold endFrame
  split
  case h_5 => exact .refl s
  all_goals exact moves_quiet rfl rfl rfl rfl rfl rfl

theorem exec_request_moves {c : Instr} {body : List Byte} {s t : State} (hb : c.requestBody = some body)
    (h : exec c s = .next t) : Moves s t := by
  rcases exec_request hb s with he | he <;> rw [he] at h <;> cases h
  · exact .refl s
  · unfold requestArrives
    split
    · exact takeRequest_moves c body _ s
    · exact .refl s

theorem execTimerStep_moves {i : Fin 4} {s t : State} (h : execTimerStep i s = .next t) : Moves s t := by
  unfold execTimerStep at h
  cases h
  split
  · exact (modTimer_moves i _ s).trans (countEvent_moves i _)
  · exact .refl s

/-- Every command is a sequence of moves. -/
theorem exec_moves {c : Instr} {s t : State} (h : exec c s = .next t) : Moves s t := by
  cases c with
  | powerOn => cases h; exact hardReset_moves s
  | rstnAssert => cases h; exact hardReset_moves s
  | rstnRelease => cases h; exact releaseReset_moves s
  | requestAccept p r => cases h; exact arrive_moves p r s
  | headProcessing p => cases h; exact processHead_moves p s
  | memoryGrant => cases h; exact grant_moves s
  | memoryAnswer a data => cases h; exact takeAnswer_moves a data s
  | drainStart => cases h; exact testStart_moves s
  | responseDelivery p => cases h; exact deliver_moves p s
  | holdTimerExpiry => cases h; exact expireHold_moves s
  | serviceTick order => cases h; exact serviceTick_moves order s
  | timerStep i => exact execTimerStep_moves h
  | pulseEnd g => cases h; exact moves_quiet rfl rfl rfl rfl rfl rfl
  | syncTransition i level => cases h; exact syncSettles_moves i level s
  | choldChange asserted => cases h; exact choldSet_moves asserted s
  | frameStart => cases h; exact startFrame_moves s
  | frameEnd => cases h; exact endFrame_moves s
  | requestByteReceived b => cases h; exact clockByte_moves b s
  | _ => exact exec_request_moves rfl h

/-- Every step is a sequence of moves. -/
theorem step_moves {s t : State} (h : step s = .next t) : Moves s t := by
  unfold step at h
  split at h
  next => cases h; exact refclkEdge_moves s
  next c rest _ =>
    exact Moves.trans (t := { s with pending := rest }) (moves_quiet rfl rfl rfl rfl rfl rfl) (exec_moves h)

/-- Every step keeps the law of the engine. -/
theorem step_keeps_engineLaw {s t : State} (h : EngineLaw s) (hstep : step s = .next t) : EngineLaw t :=
  Moves.keep EngineLaw.move h (step_moves hstep)

/-- Settles O58: the counts go with the law of the staging path, and the rest is kept move by move. -/
theorem stepsKeepTheEngine : Obligations.StepsKeepTheEngine := by
  intro s t ⟨hs, he⟩ h
  have hst := step_keeps_stagingSound hs h
  obtain ⟨-, hl⟩ := (engineSound_iff s).mp he
  exact ⟨hst, (engineSound_iff t).mpr ⟨hst.1, step_keeps_engineLaw hl h⟩⟩

end Sys2Proof.Machine

namespace Sys2Proof.Machine

/-! ## Admission at the head of the Host Port (R24 to R31) -/

theorem not_fits_iff (g : Fin 4) (r : Request) (s : State) : ¬ Fits g r s ↔
    (s.group g).cfg.quota < need s.queue g r + ((s.group g).openCount + (s.group g).sealedCount) ∨
      512 < need s.queue g r + s.queue.length := by
  unfold Fits
  omega

/-- What the monitors see does not matter to the admission test (R25, R144). -/
theorem fits_seenAtHead (p : PortId) (q r : Request) (g : Fin 4) (s : State) :
    Fits g r (seenAtHead p q s) ↔ Fits g r s := by
  unfold Fits
  rw [seenAtHead_group, show (seenAtHead p q s).queue = s.queue from observe_queue _ _ _ _]

/-- What becomes of a host write that is offered to admission (R25, R27, R29, R30). -/
theorem offerAdmission_spec (cls : ReqClass) (g : Fin 4) (policy : FullPolicy) (r : Request) (s : State) :
    (Fits g r s → offerAdmission cls g policy r s = (admitWrite g r s).setHead .hp (.answered ⟨.ok, []⟩)) ∧
    (¬ Fits g r s → policy = .refuse → offerAdmission cls g policy r s = s.setHead .hp (.answered ⟨.full g, []⟩)) ∧
    (¬ Fits g r s → policy = .stall → offerAdmission cls g policy r s = s.setHead .hp
      (.head cls (.held .admission (holdTicks (s.group g).cfg.stallTimeout)))) := by
  rw [← admissible_iff]
  refine ⟨fun h => by simp [offerAdmission, offerPhase, h], ?_, ?_⟩
  · rintro h rfl
    simp [offerAdmission, offerPhase, h]
  · rintro h rfl
    simp [offerAdmission, offerPhase, h]

/-- A host write inside a STAGED window of a group that admits is offered to admission once it has been seen (R10). -/
theorem exec_stagedWrite {s : State} {i : Fin 4} {r : Request} {n : Fin 8} {g : Fin 4}
    (h : s.hp.head? = some ⟨i, r, .waiting⟩) (hf : FormSound r) (hw : r.kind = .write) (hm : s.mode ≠ .bypass)
    (ha : WindowsApart s) (hin : insideOne s n r = true) (hk : (s.windows.get n).kind = .staged)
    (hg : (s.windows.get n).group = g) (hst : (s.group g).state = .running ∨ (s.group g).state = .faulted) :
    exec (.headProcessing .hp) s =
      .next (offerAdmission (stagedClass s n) g (s.windows.get n).policy r (seenAtHead .hp r s)) := by
  subst hg
  rw [headProcessing_host h (classify_inside ha hf hm hin), windowClass_staged hk]
  exact congrArg _ (handleHost_write (by rwa [seenAtHead_group]) hw)

/-- Settles O12, by the two policies of a write that does not fit. -/
theorem hostWriteNotAdmittedIsRefusedOrHeld : Obligations.HostWriteNotAdmittedIsRefusedOrHeld := by
  intro s i r n g h hf hw hm ha hin hk hg hst hfull
  have hno : ¬ Fits g r (seenAtHead .hp r s) := by rwa [fits_seenAtHead, not_fits_iff]
  obtain ⟨-, hrefuse, hstall⟩ := offerAdmission_spec (stagedClass s n) g (s.windows.get n).policy r (seenAtHead .hp r s)
  rw [exec_stagedWrite h hf hw hm ha hin hk hg hst]
  refine ⟨fun hp => by rw [hrefuse hno hp], fun hp => ?_⟩
  rw [hstall hno hp, seenAtHead_group]
  rfl

/-- The keys and *issue states* of the old entries after an admission, in their places (R26). -/
theorem admitWords_take (g : Fin 4) (r : Request) (q : List Entry) :
    (admitWords g r q).take q.length = q.map (touchedBy g (requestBeats r)) := by
  rw [admitWords_eq, List.take_left' (by simp)]

/-- The new entries after an admission, in beat order (R26). -/
theorem admitWords_drop (g : Fin 4) (r : Request) (q : List Entry) : (admitWords g r q).drop q.length =
    ((requestBeats r).filter (countsAsNeed q g)).map (fun w => newEntry g w.1 w.2) := by
  rw [admitWords_eq, List.drop_left' (by simp)]

/-- An admission leaves every entry that is not an OPEN entry of its group (R26). -/
theorem admitWords_others (g : Fin 4) (r : Request) (q : List Entry) :
    (admitWords g r q).filter (fun e => e.group != g || e.role != .opened) =
      q.filter (fun e => e.group != g || e.role != .opened) := by
  have hnew : (((requestBeats r).filter (countsAsNeed q g)).map (fun w => newEntry g w.1 w.2)).filter
      (fun e => e.group != g || e.role != .opened) = [] := by
    refine List.filter_eq_nil_iff.mpr fun e he => ?_
    obtain ⟨w, -, rfl⟩ := List.mem_map.mp he
    simp [newEntry]
  have hsame : ((fun e : Entry => e.group != g || e.role != .opened) ∘ touchedBy g (requestBeats r)) =
      fun e => e.group != g || e.role != .opened := by
    funext e
    obtain ⟨hg, hr, -, -⟩ := touchedBy_key g (requestBeats r) e
    simp [hg, hr]
  rw [admitWords_eq, List.filter_append, hnew, List.append_nil, List.filter_map, hsame]
  refine (List.map_congr_left fun e he => touchedBy_other ?_).trans (List.map_id _)
  simpa using (List.mem_filter.mp he).2

/-- The one word of a write at its address (R7). -/
theorem find_beat {r : Request} {w : Addr × Beat} {p : Addr × Beat → Bool} (hw : w ∈ requestBeats r) (hp : p w = true)
    (hone : ∀ v, p v = true → v.1 = w.1) : (requestBeats r).find? p = some w := by
  obtain ⟨l1, l2, hl⟩ := List.append_of_mem hw
  refine List.find?_eq_some_iff_append.mpr ⟨hp, l1, l2, hl, fun v hv => ?_⟩
  have hd := requestBeats_distinct r
  rw [hl, List.pairwise_append] at hd
  obtain ⟨-, -, hd⟩ := hd
  rw [Bool.not_eq_true', Bool.eq_false_iff]
  exact fun hpv => hd v hv w List.mem_cons_self (hone v hpv)

/-- A word with a non-empty mask ends in the group's OPEN entry at its address, coalesced or new (R26). -/
theorem admitWords_find_word (g : Fin 4) {r : Request} (q : List Entry) {w : Addr × Beat} (hw : w ∈ requestBeats r)
    (hm : w.2.mask ≠ LaneMask.none) : (admitWords g r q).find? (Entry.at g .opened w.1) =
      some (match q.find? (Entry.at g .opened w.1) with
        | some e => e.coalesce w.2
        | none => newEntry g w.1 w.2) := by
  rw [admitWords_find]
  cases hq : q.find? (Entry.at g .opened w.1) with
  | none =>
    have hfind : (requestBeats r).find? (fun v => v.1 == w.1 && v.2.mask != LaneMask.none) = some w :=
      find_beat hw (by simp [hm]) fun v hv => by
        simp only [Bool.and_eq_true, beq_iff_eq] at hv
        exact hv.1
    rw [hfind]
    rfl
  | some e =>
    have hat := List.find?_some hq
    simp only [Entry.at, Bool.and_eq_true, beq_iff_eq] at hat
    obtain ⟨⟨hg, hr⟩, ha⟩ := hat
    have hfind : (requestBeats r).find? (fun v => e.at g .opened v.1 && v.2.mask != LaneMask.none) = some w :=
      find_beat hw (by simp [Entry.at, hg, hr, ha, hm]) fun v hv => by
        simp only [Entry.at, Bool.and_eq_true, beq_iff_eq] at hv
        exact hv.1.2.symm.trans ha
    simp only [touchedBy, hfind]

/-- An address at which the write has no word with a non-empty mask holds what it held (R24, R26). -/
theorem admitWords_find_other (g : Fin 4) {r : Request} (q : List Entry) {a : Addr}
    (h : ∀ w ∈ requestBeats r, w.1 = a → w.2.mask = LaneMask.none) :
    (admitWords g r q).find? (Entry.at g .opened a) = q.find? (Entry.at g .opened a) := by
  rw [admitWords_find]
  cases hq : q.find? (Entry.at g .opened a) with
  | none =>
    rw [List.find?_eq_none.mpr fun w hw => ?_]
    · rfl
    · simpa using h w hw
  | some e =>
    have hat := List.find?_some hq
    simp only [Entry.at, Bool.and_eq_true, beq_iff_eq] at hat
    have hfind : (requestBeats r).find? (fun v => e.at g .opened v.1 && v.2.mask != LaneMask.none) = none :=
      List.find?_eq_none.mpr fun w hw => by
        simp only [Entry.at, Bool.and_eq_true, beq_iff_eq, bne_iff_ne, not_and, not_not, and_imp]
        exact fun _ _ hae => h w hw (hae.symm.trans hat.2)
    simp only [touchedBy, hfind]

/-- Settles O11: the queue after the admission is `admitWords` of the write. -/
theorem hostWriteAdmittedWhole : Obligations.HostWriteAdmittedWhole := by
  intro s i r n g h hf hw _ hm ha hin hk hg hst hquota hroom
  refine ⟨admitWords g r s.queue, ?_, ?_, ?_, admitWords_others g r s.queue, fun w hw hmask => ?_,
    fun a ha => admitWords_find_other g s.queue ha⟩
  · have hfit : Fits g r (seenAtHead .hp r s) := (fits_seenAtHead _ _ _ _ _).mpr ⟨hquota, hroom⟩
    have hqueue : (seenAtHead .hp r s).queue = s.queue := observe_queue _ _ _ _
    have hgroups : (seenAtHead .hp r s).groups = s.groups := observe_groups _ _ _ _
    rw [exec_stagedWrite h hf hw hm ha hin hk hg hst, (offerAdmission_spec _ _ _ _ _).1 hfit, admitWrite,
      admitWords_length, hqueue, hgroups, Nat.add_sub_cancel_left]
    rfl
  · rw [admitWords_take, List.map_map]
    refine List.map_congr_left fun e _ => ?_
    obtain ⟨hg, hr, ha, hi⟩ := touchedBy_key g (requestBeats r) e
    simp [hg, hr, ha, hi]
  · rw [admitWords_drop, List.map_map]
    rfl
  · rw [admitWords_find_word g s.queue hw hmask]
    cases s.queue.find? (Entry.at g .opened w.1) <;> rfl

/-- Settles O20, by what the retry can do. -/
theorem heldAdmissionIsRetried : Obligations.HeldAdmissionIsRetried := by
  intro t
  obtain ⟨hnone, hstays, hadmits⟩ := retryAdmission_spec t
  refine ⟨hnone, fun h hh hc => hstays h hh (.inl (by simp [hc])), fun h hh hc => ⟨fun hfull => ?_, fun hquota hroom => ?_⟩⟩
  · refine hstays h hh (.inr ?_)
    rw [← Bool.not_eq_true, admissible_iff, not_fits_iff]
    exact hfull
  · have hretry := hadmits h hh hc ((admissible_iff _ _ _).mpr ⟨hquota, hroom⟩)
    exact ⟨hretry, by rw [hretry, State.setHead_queue, admitWrite_queue, admitWords_length]⟩

/-! ## The ends of the counts (R30, R32, R154) -/

/-- The hold timer expires at its last tick, and at no other (R30, R32). -/
theorem expireHold_spec (s : State) :
    (∀ h k, s.held = some h → h.timer = some k → k ≤ 1 →
      expireHold s = s.setHead .hp (.answered ⟨.full h.cls.group, []⟩)) ∧
    (∀ h k, s.held = some h → h.timer = some k → 1 < k → expireHold s = s) ∧
    (∀ h, s.held = some h → h.timer = none → expireHold s = s) ∧
    (s.held = none → expireHold s = s) :=
  ⟨fun h k hh hk hle => by simp only [expireHold, hh, hk, if_pos hle],
    fun h k hh hk hlt => by simp only [expireHold, hh, hk, if_neg (Nat.not_le.mpr hlt)],
    fun h hh hk => by simp only [expireHold, hh, hk], fun hh => by simp only [expireHold, hh]⟩

theorem exec_holdTimerExpiry (s : State) : exec .holdTimerExpiry s = .next (expireHold s) := rfl

theorem exec_pulseEnd (g : Fin 4) (s : State) : exec (.pulseEnd g) s = .next (s.modLine g Line.endPulse) := rfl

/-- A pulse ends at a countdown of 1, and at no other (R154). -/
theorem endPulse_spec (x : Line) : (x.countdown ≠ 1 → x.endPulse = x) ∧
    (x.countdown = 1 → x.endPulse = { x with countdown := 0, logic := false }) :=
  ⟨fun h => if_neg h, fun h => if_pos h⟩

/-- Settles O24, count by count. -/
theorem expiriesEndTheirCounts : Obligations.ExpiriesEndTheirCounts := by
  refine ⟨fun s => ?_, fun s g => ?_⟩
  · obtain ⟨hlast, hmore, hnone, hfree⟩ := expireHold_spec s
    rw [exec_holdTimerExpiry]
    exact ⟨fun h k hh hk hle => by rw [hlast h k hh hk hle], fun h k hh hk hlt => by rw [hmore h k hh hk hlt],
      fun h hh hk => by rw [hnone h hh hk], fun hh => by rw [hfree hh]⟩
  · obtain ⟨hstays, hends⟩ := endPulse_spec (s.lines.get g)
    rw [exec_pulseEnd, State.modLine, Four.modify]
    exact ⟨fun hc => by rw [hstays hc, Four.set_get_self], fun hc => by rw [hends hc]⟩

end Sys2Proof.Machine

namespace Sys2Proof.Machine

/-! ## The bytes of the objects (R176, Section 10.7) -/

/-- One byte of a field, counted from its least significant bit. -/
theorem extractByte_eq {w : Nat} (x : BitVec w) (k : Nat) : x.extractLsb' k 8 = BitVec.ofNat 8 (x.toNat / 2 ^ k) := by
  apply BitVec.eq_of_toNat_eq
  rw [BitVec.extractLsb'_toNat, BitVec.toNat_ofNat, Nat.shiftRight_eq_div_pow]

theorem bytes16_eq (x : BitVec 16) : bytes16 x = twoBytes x.toNat := by
  simp [bytes16, twoBytes, extractByte_eq]

theorem bytes32_eq (x : BitVec 32) : bytes32 x = fourBytes x.toNat := by
  simp [bytes32, fourBytes, extractByte_eq]

/-- A count reads modulo 65536, and a size modulo 2^32 (R176). -/
theorem count16_eq (n : Nat) : count16 n = twoBytes n := by
  rw [count16, bytes16_eq, BitVec.toNat_ofNat, twoBytes, twoBytes, List.cons.injEq, List.cons.injEq]
  exact ⟨BitVec.eq_of_toNat_eq (by simp only [BitVec.toNat_ofNat]; omega),
    BitVec.eq_of_toNat_eq (by simp only [BitVec.toNat_ofNat]; omega), rfl⟩

theorem bytes32_ofNat (n : Nat) : bytes32 (BitVec.ofNat 32 n) = fourBytes n := by
  rw [bytes32_eq, BitVec.toNat_ofNat, fourBytes, fourBytes]
  simp only [List.cons.injEq, and_true]
  refine ⟨?_, ?_, ?_, ?_⟩ <;> exact BitVec.eq_of_toNat_eq (by simp only [BitVec.toNat_ofNat]; omega)

/-- A set held as bits reads as the sum of its bits (R176). -/
theorem setByte_eq (b0 b1 b2 b3 : Bool) : setByte b0 b1 b2 b3 = BitVec.ofNat 8
    ((if b0 then 1 else 0) + (if b1 then 2 else 0) + (if b2 then 4 else 0) + (if b3 then 8 else 0)) := by
  revert b0 b1 b2 b3; decide

/-! The codes of Section 10.7, in the terms of the statement. -/

theorem WindowKind.byte_eq (k : WindowKind) : k.byte = if k = .staged then 0x00 else 0x01 := by cases k <;> rfl

theorem FullPolicy.byte_eq (p : FullPolicy) : p.byte = if p = .stall then 0x00 else 0x01 := by cases p <;> rfl

theorem Direction.byte_eq (d : Direction) : d.byte = if d = .up then 0x00 else 0x01 := by cases d <;> rfl

theorem Polarity.byte_eq (p : Polarity) : p.byte = if p = .activeHigh then 0x00 else 0x01 := by cases p <;> rfl

theorem kindByte_eq (k : Kind) : kindByte k = if k = .read then 0x00 else 0x01 := by cases k <;> rfl

theorem Window.bytes_eq (w : Window) : w.bytes =
    [yesNo w.enabled] ++ fourBytes w.base.toNat ++ fourBytes w.size ++
      [if w.kind = .staged then 0x00 else 0x01, BitVec.ofNat 8 w.group.val, yesNo w.forward,
       if w.policy = .stall then 0x00 else 0x01] := by
  rw [Window.bytes, bytes32_eq, bytes32_ofNat, WindowKind.byte_eq, FullPolicy.byte_eq, List.append_assoc,
    List.append_assoc]
  rfl

theorem FaultRecord.bytes_eq (f : FaultRecord) : f.bytes =
    [yesNo f.valid] ++ fourBytes f.address.toNat ++ twoBytes f.epoch.toNat ++ [BitVec.ofNat 8 f.dropped] := by
  rw [FaultRecord.bytes, bytes32_eq, bytes16_eq]
  rfl

/-- The source and k bytes (Section 10.7.5). -/
theorem CountSource.bytes_tick (k : Fin 16) : (CountSource.tick k).bytes = [0x00, BitVec.ofNat 8 k.val] := rfl

theorem CountSource.bytes_sync (e : Edge) : (CountSource.sync e).bytes =
    [match e with
      | .rising => 0x11
      | .falling => 0x12
      | .both => 0x13, 0x00] := by
  cases e <;> rfl

/-- The items of a timer that are read beside its counter (Section 10.7.8). -/
theorem Timer.statBytes_eq (x : Timer) : x.statBytes = twoBytes x.counter.toNat ++
    [if x.direction = .up then 0x00 else 0x01, if x.running then 0x01 else 0x00,
      BitVec.ofNat 8 ((if x.periodNext.isSome then 1 else 0) + (if x.matchNext.isSome then 2 else 0))] := by
  rw [Timer.statBytes, bytes16_eq, Direction.byte_eq, setByte_eq]
  rfl

theorem MonCfg.bytes_eq (c : MonCfg) : c.bytes =
    [yesNo c.enabled] ++ fourBytes c.low.toNat ++ fourBytes c.high.toNat ++
      [BitVec.ofNat 8 ((if c.streams.hp then 1 else 0) + (if c.streams.cp then 2 else 0) +
        (if c.streams.ce then 4 else 0)),
       BitVec.ofNat 8 ((if c.kinds.read then 1 else 0) + (if c.kinds.write then 2 else 0)),
       BitVec.ofNat 8 c.stamp.val] := by
  rw [MonCfg.bytes, bytes32_eq, bytes32_eq, setByte_eq, setByte_eq]
  rfl

theorem Monitor.countBytes_eq (m : Monitor) : m.countBytes = twoBytes m.hits ++ [BitVec.ofNat 8 m.overwrites] := by
  rw [Monitor.countBytes, count16_eq]
  rfl

/-! ### EVENTS and EVENT_EN -/

theorem EventFlag.bit_lt (f : EventFlag) : f.bit < 30 := by
  cases f <;> simp only [EventFlag.bit] <;> omega

/-- Thirty bits as EVENTS and EVENT_EN read them: each flag at its bit, and bits 30 and 31 reading 0 (Section 10.7.7). -/
theorem flagBytes_eq (x : BitVec 30) : ∃ v : BitVec 32, bytes32 (x.setWidth 32) = fourBytes v.toNat ∧
    (∀ f : EventFlag, v.getLsbD (flagPosition f) = x.getLsbD f.bit) ∧ v.getLsbD 30 = false ∧ v.getLsbD 31 = false := by
  refine ⟨x.setWidth 32, bytes32_eq _, fun f => ?_, by simp, by simp⟩
  have hpos : flagPosition f = f.bit := by cases f <;> rfl
  have hlt := f.bit_lt
  rw [hpos, BitVec.getLsbD_setWidth, decide_eq_true (by omega), Bool.true_and]

theorem holdBytes_none {s : State} (h : s.held = none) : s.holdBytes = [0x00, 0x00] := by
  simp only [State.holdBytes, h]

theorem holdBytes_some {s : State} {h : HeldWrite} (hh : s.held = some h) : s.holdBytes =
    [match h.cause with
      | .admission => 0x01
      | .disable => 0x02, BitVec.ofNat 8 h.cls.group.val] := by
  simp only [State.holdBytes, hh]
  cases h.cause <;> rfl

/-- Settles O38, object by object. -/
theorem objectBytesAreTheLayouts : Obligations.ObjectBytesAreTheLayouts := by
  intro s
  refine ⟨?_, ?_, ?_, ?_, ?_, rfl, ?_, fun h => ?_, fun h hh => ?_, flagBytes_eq _, flagBytes_eq _⟩
  · rintro n w rfl
    exact Window.bytes_eq _
  · rintro g x rfl
    refine ⟨?_, ?_, FaultRecord.bytes_eq _⟩
    · change (s.group g).cfg.bytes = _
      rw [GroupCfg.bytes, count16_eq, count16_eq, setByte_eq]
      rfl
    · change (s.group g).statBytes = _
      rw [GroupRec.statBytes, bytes16_eq, bytes16_eq, count16_eq, count16_eq]
      rfl
  · rintro t x rfl
    refine ⟨?_, Timer.statBytes_eq _⟩
    change (s.timer t).cfgBytes = _
    rw [Timer.cfgBytes, bytes16_eq, bytes16_eq]
    cases (s.timer t).source with
    | tick k => rw [CountSource.bytes_tick]; rfl
    | sync e => rw [CountSource.bytes_sync]; cases e <;> rfl
  · rintro m x rfl
    refine ⟨MonCfg.bytes_eq _, ?_, Monitor.countBytes_eq _⟩
    change (s.monitors.get m).capture.bytes = _
    rw [Capture.bytes, kindByte_eq, bytes32_eq, bytes16_eq, bytes16_eq]
    rfl
  · rintro g x rfl
    change (s.lines.get g).bytes = _
    rw [Line.bytes, Polarity.byte_eq]
    rfl
  · change s.mode.byte :: count16 s.tick.divisor = _
    rw [count16_eq]
    rfl
  · exact congrArg₂ (· ++ ·) (count16_eq _) (holdBytes_none h)
  · exact congrArg₂ (· ++ ·) (count16_eq _) (holdBytes_some hh)

end Sys2Proof.Machine

namespace Sys2Proof.Machine

/-! ## What leaves the group table as it is -/

theorem handleConsumer_groups (cls : ReqClass) (r : Request) (s : State) :
    (handleConsumer cls r s).groups = s.groups := by
  unfold handleConsumer
  split
  · simp
  · split <;> simp
  · simp

theorem expireHold_groups (s : State) : (expireHold s).groups = s.groups := by
  obtain ⟨e1, e2, e3, e4⟩ := expireHold_spec s
  cases hh : s.held with
  | none => rw [e4 hh]
  | some h =>
    cases hk : h.timer with
    | none => rw [e3 h hh hk]
    | some k =>
      rcases Nat.lt_or_ge 1 k with hlt | hle
      · rw [e2 h k hh hk hlt]
      · rw [e1 h k hh hk hle]; simp

theorem tickHold_groups (s : State) : (tickHold s).groups = s.groups := by
  unfold tickHold
  split
  · split
    · split
      · exact expireHold_groups s
      · simp
    · rfl
  · rfl

theorem reexamineConsumer_groups (g : Fin 4) (s : State) : (reexamineConsumer g s).groups = s.groups := by
  rcases reexamineConsumer_cases g s with ⟨h, -⟩ | ⟨_, _, -, h⟩ <;> simp [h]

theorem deliver_groups (p : PortId) (s : State) : (deliver p s).groups = s.groups := by
  unfold deliver
  split
  · rfl
  · split
    · unfold causeOf
      split <;> simp
    all_goals rfl

theorem arrive_groups (p : PortId) (r : Request) (s : State) : (arrive p r s).groups = s.groups := by
  unfold arrive
  split <;> simp

theorem grant_groups (s : State) : (grant s).groups = s.groups := by
  have port : ∀ p sl f, (grantPort p sl f s).groups = s.groups := fun p sl f => by simp [grantPort]
  unfold grant
  split
  · rfl
  · split
    · exact port _ _ _
    · rfl
  · split
    · exact port _ _ _
    · rfl
  · split
    · simp [grantEngine]
    · rfl

theorem answerPort_groups (p : PortId) (r : IssueRec) (ans : AnswerStatus) (data : List Word) (s : State) :
    (answerPort p r ans data s).groups = s.groups := by
  unfold answerPort
  split <;> simp

theorem releaseReset_groups (s : State) : (releaseReset s).groups = s.groups := by
  unfold releaseReset
  split <;> rfl

theorem startFrame_groups (s : State) : (startFrame s).groups = s.groups := by
  unfold startFrame
  split
  · split <;> rfl
  all_goals rfl

theorem endFrame_groups (s : State) : (endFrame s).groups = s.groups := by
  unfold endFrame
  split <;> rfl

/-- A request that moves nothing of the staging path leaves the group table as it is. -/
theorem ite_groups {c : Prop} [Decidable c] {s : State} {x y : Taken} (hx : x.state.groups = s.groups)
    (hy : y.state.groups = s.groups) : (if c then x else y).state.groups = s.groups := by
  split
  · exact hx
  · exact hy

theorem putWindow_groups (n : Fin 8) (v : WindowRaw) (s : State) : (putWindow n v s).state.groups = s.groups := by
  unfold putWindow
  split
  · rfl
  · exact ite_groups rfl (ite_groups rfl rfl)

theorem putTimerCfg_groups (t : Fin 4) (v : TimerCfgRaw) (s : State) :
    (putTimerCfg t v s).state.groups = s.groups := by
  unfold putTimerCfg
  split
  · rfl
  · exact ite_groups rfl (ite_groups rfl (ite_groups rfl rfl))

theorem putMonCfg_groups (m : Fin 4) (v : MonCfgRaw) (s : State) : (putMonCfg m v s).state.groups = s.groups := by
  unfold putMonCfg
  split <;> rfl

theorem putCmtCfg_groups (g : Fin 4) (v : CmtCfgRaw) (s : State) : (putCmtCfg g v s).state.groups = s.groups := by
  unfold putCmtCfg
  split
  · exact ite_groups rfl rfl
  · rfl

theorem setCmtAction_groups (arg : Byte) (s : State) : (setCmtAction arg s).state.groups = s.groups := by
  unfold setCmtAction
  split <;> rfl

theorem readEffect_groups (o : Obj) (s : State) : (readEffect o s).groups = s.groups := by
  unfold readEffect
  split <;> rfl

theorem timerStartAction_groups (t : Fin 4) (s : State) : (timerStartAction t s).state.groups = s.groups :=
  ite_groups rfl rfl

theorem timerStopAction_groups (t : Fin 4) (s : State) : (timerStopAction t s).state.groups = s.groups :=
  ite_groups rfl rfl

/-! ## The epoch numbers of one group (R46) -/

/-- The open epoch number of a group is its last committed one plus 1, plus 1 more while it has a sealed epoch (R46). -/
def GroupRec.EpochLaw (x : GroupRec) : Prop :=
  x.openEpoch = x.lastCommitted + 1 + (if x.hasSealed then 1 else 0)

theorem epochsAgree_iff (s : State) : EpochsAgree s ↔ ∀ g : Fin 4, (s.group g).EpochLaw := Iff.rfl

theorem GroupRec.EpochLaw.fresh (c : GroupCfg) : (GroupRec.fresh c).EpochLaw := rfl

/-- A seal opens the next epoch, and the one it closes is the group's one sealed epoch (R46, R47). -/
theorem GroupRec.EpochLaw.onSeal {x : GroupRec} (hno : x.hasSealed = false) (h : x.EpochLaw) : x.onSeal.EpochLaw := by
  have hopen : x.openEpoch = x.lastCommitted + 1 := by simpa [GroupRec.EpochLaw, hno] using h
  simp [GroupRec.EpochLaw, GroupRec.onSeal, hopen]

/-- A completion commits the epoch before the open one, whatever was committed before (R46, R74). -/
theorem GroupRec.EpochLaw.onCompletion (x : GroupRec) : x.onCompletion.EpochLaw := by
  simp [GroupRec.EpochLaw, GroupRec.onCompletion]

/-! ## Steps that keep the epoch numbers (R46)

Only a seal, a completion and a reset move the epoch numbers of a group. -/

/-- From `s` to `t` each group keeps the law of its epoch numbers. -/
def EpochsKept (s t : State) : Prop := ∀ g : Fin 4, (s.group g).EpochLaw → (t.group g).EpochLaw

theorem EpochsKept.refl (s : State) : EpochsKept s s := fun _ => id

theorem EpochsKept.trans {s t u : State} (h1 : EpochsKept s t) (h2 : EpochsKept t u) : EpochsKept s u :=
  fun g h => h2 g (h1 g h)

/-- A step that leaves the group table. -/
theorem EpochsKept.of_groups {s t : State} (h : t.groups = s.groups) : EpochsKept s t := fun g hg => by
  rwa [State.group_congr h]

/-- A step that changes the record of one group. -/
theorem EpochsKept.of_modify {g : Fin 4} {f : GroupRec → GroupRec} {s t : State} (h : t.groups = s.groups.modify g f)
    (hf : (s.group g).EpochLaw → (f (s.group g)).EpochLaw) : EpochsKept s t := by
  intro k hk
  have hgroup : t.group k = if k = g then f (s.group g) else s.group k := by simp [State.group, h]
  rw [hgroup]
  split
  next hkg => exact hf (hkg ▸ hk)
  next => exact hk

theorem EpochsKept.foldl {α : Type} {f : State → α → State} (hf : ∀ s a, EpochsKept s (f s a)) (l : List α)
    (s : State) : EpochsKept s (l.foldl f s) := by
  induction l generalizing s with
  | nil => exact .refl s
  | cons a l ih => exact (hf s a).trans (ih _)

theorem setHead_epochs (p : PortId) (ph : SlotPhase) (s : State) : EpochsKept s (s.setHead p ph) :=
  .of_groups (by simp)

/-! ### Admission -/

theorem admitWrite_epochs (g : Fin 4) (r : Request) (s : State) : EpochsKept s (admitWrite g r s) :=
  .of_modify (admitWrite_groups g r s) id

theorem offerAdmission_epochs (cls : ReqClass) (g : Fin 4) (policy : FullPolicy) (r : Request) (s : State) :
    EpochsKept s (offerAdmission cls g policy r s) := by
  unfold offerAdmission
  split
  · exact (admitWrite_epochs g r s).trans (setHead_epochs _ _ _)
  · exact setHead_epochs _ _ s

theorem retryAdmission_epochs (s : State) : EpochsKept s (retryAdmission s) := by
  unfold retryAdmission
  split
  · split
    · exact (admitWrite_epochs _ _ s).trans (setHead_epochs _ _ _)
    · exact .refl s
  · exact .refl s

theorem handleHost_epochs (cls : ReqClass) (r : Request) (s : State) : EpochsKept s (handleHost cls r s) := by
  cases cls with
  | bypassed => exact setHead_epochs _ _ s
  | outside => exact setHead_epochs _ _ s
  | locked n => cases hk : r.kind <;> simp only [handleHost, hk] <;> exact setHead_epochs _ _ s
  | staged n g fwd policy =>
    simp only [handleHost]
    split
    · exact setHead_epochs _ _ s
    · exact offerAdmission_epochs _ _ _ _ s
    · exact offerAdmission_epochs _ _ _ _ s
    · exact setHead_epochs _ _ s
    all_goals split <;> exact setHead_epochs _ _ s

theorem processHead_epochs (p : PortId) (s : State) : EpochsKept s (processHead p s) := by
  unfold processHead
  split
  next sl _ =>
    split
    next =>
      have seen : EpochsKept s (observe (PortId.requester p) sl.req.kind (monitoredWords sl.req) s) :=
        .of_groups (observe_groups _ _ _ _)
      refine seen.trans ?_
      unfold examine
      split
      · exact setHead_epochs _ _ _
      · cases p
        · exact handleHost_epochs _ _ _
        · exact .of_groups (handleConsumer_groups _ _ _)
    all_goals exact .refl s
  next => exact .refl s

theorem reexamineHost_epochs (g : Fin 4) (s : State) : EpochsKept s (reexamineHost g s) := by
  unfold reexamineHost
  split
  · split
    · split
      · exact setHead_epochs _ _ s
      · split
        · split
          · exact offerAdmission_epochs _ _ _ _ s
          · split
            · exact setHead_epochs _ _ s
            · exact .refl s
        · exact .refl s
      all_goals exact .refl s
    all_goals exact .refl s
  · exact .refl s

/-! ### Seals, completions and starts -/

theorem sealCore_epochs {g : Fin 4} {s : State} (hno : (s.group g).hasSealed = false) : EpochsKept s (sealCore g s) :=
  .of_modify (sealCore_groups g s) (.onSeal hno)

theorem reachDisabled_epochs (g : Fin 4) (s : State) : EpochsKept s (reachDisabled g s) := by
  obtain ⟨p, m, e, h⟩ := reachDisabled_eq g s
  rw [h]
  exact .of_modify (f := fun x => { x with state := .disabled }) rfl id

/-- A completion leaves its group without a sealed epoch, so a final seal finds none (R58, R74). -/
theorem finishDrain_epochs (g : Fin 4) (s : State) : EpochsKept s (finishDrain g s) := by
  have complete : EpochsKept s (completeCore g s) := .of_modify (completeCore_groups g s) fun _ => .onCompletion _
  refine complete.trans ?_
  unfold finishDrain completeStopping
  split
  · split
    · exact sealCore_epochs (by simp [State.group, GroupRec.onCompletion])
    · exact reachDisabled_epochs g _
  · exact .refl _

theorem testStart_epochs (s : State) : EpochsKept s (testStart s) := by
  obtain ⟨u, hu⟩ := startTest_total s
  rw [testStart_of hu]
  induction hu with
  | rests => exact .refl _
  | starts => exact .of_groups rfl
  | @completes s u g rest _ _ _ _ _ _ ih =>
    rw [← finishDrain_eq] at ih
    have begins : EpochsKept s (startedAt g rest s) := .of_groups rfl
    exact (begins.trans (finishDrain_epochs g _)).trans ih

theorem sealGroup_epochs {g : Fin 4} {s : State} (hno : (s.group g).hasSealed = false) : EpochsKept s (sealGroup g s) :=
  (sealCore_epochs hno).trans (testStart_epochs _)

theorem testCompletion_epochs (s : State) : EpochsKept s (testCompletion s) := by
  unfold testCompletion
  split
  · split
    · exact (finishDrain_epochs _ s).trans (testStart_epochs _)
    · exact .refl s
  · exact .refl s

theorem boundary_epochs (g : Fin 4) (s : State) : EpochsKept s (boundary g s) := by
  obtain ⟨u, hu⟩ := boundaryGives_total g s
  obtain ⟨b1, b2, b3, b4⟩ := boundary_spec g s
  cases hu with
  | ignored hr => rw [b1 hr]; exact .refl s
  | overrun hr hh =>
    rw [b2 hr hh]
    exact .of_modify (f := GroupRec.countOverrun) rfl id
  | passes hr hh ho he => rw [b3 hr hh ho he]; exact .refl s
  | seals hr hh ho => rw [b4 hr hh ho]; exact sealGroup_epochs hh

theorem disableGroup_epochs (g : Fin 4) (s : State) : EpochsKept s (disableGroup g s) := by
  obtain ⟨p, hp⟩ := convertHold_eq g (s.inState g .stopping)
  have stop : EpochsKept s (convertHold g (s.inState g .stopping)) := by
    rw [hp]
    exact .of_modify (f := fun x => { x with state := .stopping }) rfl id
  unfold disableGroup
  split
  · exact reachDisabled_epochs g s
  · dsimp only
    split
    next h => exact stop.trans (sealGroup_epochs (by rw [hp]; simpa [State.group] using h.1))
    next => exact stop

theorem windDown_epochs (s : State) (g : Fin 4) : EpochsKept s (windDown s g) := by
  unfold windDown
  split
  · exact disableGroup_epochs g s
  · exact disableGroup_epochs g s
  all_goals exact .refl s

/-! ### Answers and resets -/

theorem removeSealed_epochs (g : Fin 4) (a : Addr) (s : State) : EpochsKept s (removeSealed g a s) :=
  .of_modify (removeSealed_groups g a s) id

theorem dropSealed_epochs (g : Fin 4) (a : Addr) (s : State) : EpochsKept s (dropSealed g a s) :=
  (removeSealed_epochs g a s).trans (.of_modify (f := GroupRec.onDrop a) rfl id)

theorem commitAnswer_epochs (x : EntryRef) (ans : AnswerStatus) (s : State) : EpochsKept s (commitAnswer x ans s) := by
  have settle : ∀ {t : State}, EpochsKept s t → EpochsKept s (testCompletion (retryAdmission t)) := fun h =>
    (h.trans (retryAdmission_epochs _)).trans (testCompletion_epochs _)
  unfold commitAnswer
  split
  · exact .refl s
  · split
    · exact settle (removeSealed_epochs _ _ s)
    · exact settle (dropSealed_epochs _ _ s)
    · exact .of_groups rfl
    · exact .refl s

theorem takeAnswer_epochs (ans : AnswerStatus) (data : List Word) (s : State) :
    EpochsKept s (takeAnswer ans data s) := by
  unfold takeAnswer
  split
  · exact .refl s
  next r rest _ =>
    have departs : EpochsKept s (departRecord r rest s) := .of_groups (departRecord_groups r rest s)
    refine departs.trans ?_
    unfold routeAnswer
    split
    · exact .refl _
    · split
      · exact .of_groups (answerPort_groups _ _ _ _ _)
      · exact .of_groups (answerPort_groups _ _ _ _ _)
      · split
        · exact commitAnswer_epochs _ ans _
        · exact .refl _

theorem hardReset_epochs (s : State) : EpochsKept s (hardReset s) := fun g _ => by
  have hgroup : (hardReset s).group g = GroupRec.fresh GroupCfg.reset := Four.get_all _ g
  rw [hgroup]
  exact .fresh _

theorem softReset_epochs (s : State) : EpochsKept s (softReset s) := fun g _ => by
  have hgroup : (softReset s).group g = GroupRec.fresh (s.group g).cfg := Four.get_map _ _ g
  rw [hgroup]
  exact .fresh _

/-! ### Time -/

theorem modTimer_epochs (t : Fin 4) (f : Timer → Timer) (s : State) : EpochsKept s (s.modTimer t f) := .of_groups rfl

theorem countEvent_epochs (t : Fin 4) (s : State) : EpochsKept s (countEvent t s) := by
  have steps := modTimer_epochs t Timer.step s
  unfold countEvent
  split
  · split
    · exact steps.trans (boundary_epochs t _)
    · exact steps
  · exact .refl s

theorem tickTimer_epochs (t : Fin 4) (s : State) : EpochsKept s (tickTimer t s) := by
  unfold tickTimer
  split
  · split
    · exact .refl s
    · split
      · exact (modTimer_epochs t _ s).trans (countEvent_epochs t _)
      · exact modTimer_epochs t _ s
  · exact .refl s

theorem tickSink_epochs (s : State) (k : TickSink) : EpochsKept s (tickSink s k) := by
  cases k with
  | timer t => exact tickTimer_epochs t s
  | hold => exact .of_groups (tickHold_groups s)
  | line g => exact .of_groups rfl

theorem serviceTick_epochs (order : List TickSink) (s : State) : EpochsKept s (serviceTick order s) := by
  unfold serviceTick
  split
  · exact .refl s
  · exact EpochsKept.trans (t := { s with tick := { s.tick with inForce := s.tick.divisor, count := 0 } })
      (.of_groups rfl) (.foldl tickSink_epochs _ _)

theorem refclkEdge_epochs (s : State) : EpochsKept s (refclkEdge s) := by
  unfold refclkEdge
  split
  · exact .refl s
  · split
    · exact .of_groups rfl
    · exact EpochsKept.trans (t := { s with freeIndex := s.freeIndex + 1 }) (.of_groups rfl) (serviceTick_epochs _ _)

theorem execTimerStep_epochs {i : Fin 4} {s t : State} (h : execTimerStep i s = .next t) : EpochsKept s t := by
  unfold execTimerStep at h
  cases h
  split
  · exact (modTimer_epochs i _ s).trans (countEvent_epochs i _)
  · exact .refl s

theorem syncActs_epochs (t : Fin 4) (level : Bool) (s : State) : EpochsKept s (syncActs t level s) := by
  have counts : EpochsKept s (if countsSync (s.timer t) level then countEvent t s else s) := by
    split
    · exact countEvent_epochs t s
    · exact .refl s
  unfold syncActs
  dsimp only
  split
  · exact counts.trans (boundary_epochs t _)
  · exact counts

theorem syncSettles_epochs (t : Fin 4) (level : Bool) (s : State) : EpochsKept s (syncSettles t level s) := by
  unfold syncSettles
  split
  · exact .of_groups rfl
  · split
    · exact .of_groups rfl
    · exact EpochsKept.trans (t := { s with syncLine := s.syncLine.set t level, syncRef := s.syncRef.set t level })
        (.of_groups rfl) (syncActs_epochs t level _)

theorem choldSet_epochs (asserted : Bool) (s : State) : EpochsKept s (choldSet asserted s) := by
  have set : EpochsKept s { s with chold := asserted } := .of_groups rfl
  unfold choldSet
  split
  · exact set.trans (testStart_epochs _)
  · exact set

/-! ### Requests -/

theorem putGroupCfg_epochs (g : Fin 4) (v : GroupCfgRaw) (s : State) : EpochsKept s (putGroupCfg g v s).state := by
  unfold putGroupCfg
  split
  · exact .refl s
  next c _ =>
    split
    · exact .refl s
    · split
      · exact .refl s
      · exact .of_modify (f := fun x => { x with cfg := c }) rfl id

theorem enableAction_epochs (g : Fin 4) (s : State) : EpochsKept s (enableAction g s).state := by
  have enabled : EpochsKept s (s.modGroup g GroupRec.enabled) := .of_modify rfl id
  unfold enableAction
  split
  · exact .refl s
  · split
    · exact .refl s
    · exact (enabled.trans (reexamineHost_epochs g _)).trans (.of_groups (reexamineConsumer_groups g _))

theorem disableAction_epochs (g : Fin 4) (s : State) : EpochsKept s (disableAction g s).state := by
  unfold disableAction
  split
  · exact disableGroup_epochs g s
  · exact disableGroup_epochs g s
  all_goals exact .refl s

theorem sealAction_epochs (g : Fin 4) (s : State) : EpochsKept s (sealAction g s).state := by
  have sealed : EpochsKept s (if (s.group g).hasSealed then refuse .busy s else done (sealGroup g s)).state := by
    split
    · exact .refl s
    next hn => exact sealGroup_epochs (Bool.eq_false_iff.mpr hn)
  unfold sealAction
  split
  · exact .refl s
  · exact .refl s
  · exact sealed
  · exact sealed

theorem discardAction_epochs (g : Fin 4) (s : State) : EpochsKept s (discardAction g s).state := by
  have discard : EpochsKept s (retryAdmission (discardOpen g s)) :=
    EpochsKept.trans (.of_modify (discardOpen_groups g s) id) (retryAdmission_epochs _)
  unfold discardAction
  split
  · exact .refl s
  · exact .refl s
  · exact discard
  · exact discard

theorem bypassAction_epochs (arg : Byte) (s : State) : EpochsKept s (bypassAction arg s).state := by
  unfold bypassAction
  split
  · exact .refl s
  · split
    · exact .refl s
    · split
      · exact .of_groups rfl
      · exact EpochsKept.trans (t := { s with mode := .leaving }) (.of_groups rfl) (.foldl windDown_epochs _ _)

theorem softResetAction_epochs (arg : Byte) (s : State) : EpochsKept s (softResetAction arg s).state := by
  unfold softResetAction
  split
  · exact .refl s
  · exact softReset_epochs s

theorem withIndex_epochs {f : Fin 4 → State → Taken} (hf : ∀ g s, EpochsKept s (f g s).state) (arg : Byte) (s : State) :
    EpochsKept s (withIndex arg f s).state := by
  unfold withIndex
  split
  · exact .refl s
  · exact hf _ s

/-- Every request keeps the epoch numbers once its CRC byte is found correct (R167). -/
theorem requestOp_epochs (c : Instr) (s : State) : EpochsKept s (requestOp c s).state := by
  cases c with
  | get o crc => exact .of_groups (readEffect_groups o s)
  | getCapture m crc => exact .of_groups (readEffect_groups (.capture m) s)
  | putDevice v crc => exact .of_groups (ite_groups rfl rfl)
  | putWindow n v crc => exact .of_groups (putWindow_groups n v s)
  | putGroupCfg g v crc => exact putGroupCfg_epochs g v s
  | putTimerCfg t v crc => exact .of_groups (putTimerCfg_groups t v s)
  | putMonCfg m v crc => exact .of_groups (putMonCfg_groups m v s)
  | putCmtCfg g v crc => exact .of_groups (putCmtCfg_groups g v s)
  | activate arg crc => exact .of_groups (ite_groups rfl (ite_groups rfl rfl))
  | bypass arg crc => exact bypassAction_epochs arg s
  | softReset arg crc => exact softResetAction_epochs arg s
  | enableGroup arg crc => exact withIndex_epochs enableAction_epochs arg s
  | disableGroup arg crc => exact withIndex_epochs disableAction_epochs arg s
  | sealGroup arg crc => exact withIndex_epochs sealAction_epochs arg s
  | discard arg crc => exact withIndex_epochs discardAction_epochs arg s
  | clearFault arg crc =>
    exact withIndex_epochs (fun g s => .of_modify (g := g) (f := GroupRec.clearFault) rfl id) arg s
  | timerStart arg crc => exact withIndex_epochs (fun t s => .of_groups (timerStartAction_groups t s)) arg s
  | timerStop arg crc => exact withIndex_epochs (fun t s => .of_groups (timerStopAction_groups t s)) arg s
  | timerPreset arg crc => exact withIndex_epochs (fun t s => modTimer_epochs t _ s) arg s
  | setCmt arg crc => exact .of_groups (setCmtAction_groups arg s)
  | _ => exact .of_groups rfl

theorem takeRequest_epochs (c : Instr) (body : List Byte) (crc : Byte) (s : State) :
    EpochsKept s (takeRequest body crc (requestOp c) s) := by
  unfold takeRequest
  split
  · exact (requestOp_epochs c s).trans (.of_groups rfl)
  · exact .of_groups rfl

/-- A byte clocked in keeps the epoch numbers, also when it completes a request (R164, R165). -/
theorem clockByte_epochs (b : Byte) (s : State) : EpochsKept s (clockByte b s) := by
  have take : ∀ bytes, EpochsKept s (takeBytes bytes s) := by
    intro bytes
    unfold takeBytes
    split
    next c _ => exact takeRequest_epochs c _ _ s
    next => exact .refl s
  unfold clockByte
  split
  · exact .refl s
  · exact .refl s
  · unfold receiveRequestByte
    split
    · exact take _
    · exact .of_groups rfl
  · exact .of_groups rfl
  · exact .of_groups rfl

theorem exec_request_epochs {c : Instr} {body : List Byte} {s t : State} (hb : c.requestBody = some body)
    (h : exec c s = .next t) : EpochsKept s t := by
  rcases exec_request hb s with he | he <;> rw [he] at h <;> cases h
  · exact .refl s
  · unfold requestArrives
    split
    · exact takeRequest_epochs c body _ s
    · exact .refl s

/-! ### Every command -/

/-- Every command keeps the epoch numbers. -/
theorem exec_epochs {c : Instr} {s t : State} (h : exec c s = .next t) : EpochsKept s t := by
  cases c with
  | powerOn => cases h; exact hardReset_epochs s
  | rstnAssert => cases h; exact hardReset_epochs s
  | rstnRelease => cases h; exact .of_groups (releaseReset_groups s)
  | requestAccept p r => cases h; exact .of_groups (arrive_groups p r s)
  | headProcessing p => cases h; exact processHead_epochs p s
  | memoryGrant => cases h; exact .of_groups (grant_groups s)
  | memoryAnswer a data => cases h; exact takeAnswer_epochs a data s
  | drainStart => cases h; exact testStart_epochs s
  | responseDelivery p => cases h; exact .of_groups (deliver_groups p s)
  | holdTimerExpiry => cases h; exact .of_groups (expireHold_groups s)
  | serviceTick order => cases h; exact serviceTick_epochs order s
  | timerStep i => exact execTimerStep_epochs h
  | pulseEnd g => cases h; exact .of_groups rfl
  | syncTransition i level => cases h; exact syncSettles_epochs i level s
  | choldChange asserted => cases h; exact choldSet_epochs asserted s
  | frameStart => cases h; exact .of_groups (startFrame_groups s)
  | frameEnd => cases h; exact .of_groups (endFrame_groups s)
  | requestByteReceived b => cases h; exact clockByte_epochs b s
  | _ => exact exec_request_epochs rfl h

/-- Every step keeps the epoch numbers. -/
theorem step_epochs {s t : State} (h : step s = .next t) : EpochsKept s t := by
  unfold step at h
  split at h
  next => cases h; exact refclkEdge_epochs s
  next c rest _ =>
    exact EpochsKept.trans (t := { s with pending := rest }) (.of_groups rfl) (exec_epochs h)

/-- Settles O53: the law of each group's epoch numbers goes from step to step. -/
theorem stepsKeepTheEpochs : Obligations.StepsKeepTheEpochs := fun s t hs h =>
  (epochsAgree_iff t).mpr fun g => step_epochs h g ((epochsAgree_iff s).mp hs g)

end Sys2Proof.Machine

namespace Sys2Proof.Machine

/-! ## The start test that a seal brings (R47, R48, R63) -/

/-- While CHOLD or another drain holds it back, the sealed epoch waits (R63, R64). -/
theorem startTest_sealedAt_waits {g : Fin 4} {s : State} (h : s.chold = true ∨ s.engine.state ≠ .idle) :
    StartTest (sealedAt g s) (sealedAt g s) :=
  .rests (h.elim (fun hc => .inr (.inr hc)) .inl)

/-- With no group ahead, the drain of an epoch with entries starts at once (R63). -/
theorem startTest_sealedAt_starts {g : Fin 4} {s : State} (hc : s.chold = false) (he : s.engine.state = .idle)
    (hq : s.commitReq = []) (hopen : s.queue.any (fun e => e.group == g && e.role == .opened) = true) :
    StartTest (sealedAt g s) { sealedAt g s with
      commitReq := [], engine := { s.engine with state := .draining g, retry := [] } } :=
  .starts he (congrArg (· ++ [g]) hq) hc (.inl (hasSealedEntry_sealedAt hopen))

/-- A seal makes no SEALED entry of a group that has no entries. -/
theorem hasSealedEntry_sealedAt_none {g : Fin 4} {s : State} (h : s.queue.any (fun e => e.group == g) = false) :
    hasSealedEntry (sealedAt g s).queue g = false := by
  simp only [List.any_eq_false, beq_iff_eq] at h
  simp only [hasSealedEntry, sealedAt, List.any_eq_false, List.mem_map]
  rintro _ ⟨e, he, rfl⟩
  split <;> simp [h e he]

/-- With no group ahead, an epoch with nothing to write completes at its start (R48, R63, R73). -/
theorem startTest_sealedAt_completes {g : Fin 4} {s : State} (hc : s.chold = false) (he : s.engine.state = .idle)
    (hq : s.commitReq = []) (hst : (s.group g).state ≠ .stopping)
    (hnone : s.queue.any (fun e => e.group == g) = false) (hw : writeOutstanding s.issue g = false) :
    StartTest (sealedAt g s) { drained g (sealedAt g s) with
      commitReq := [], engine := { s.engine with state := .idle, retry := [] } } := by
  refine .completes he (congrArg (· ++ [g]) hq) hc (hasSealedEntry_sealedAt_none hnone) hw ?_
  have hstate : ((drained g (startedAt g [] (sealedAt g s))).group g).state = (s.group g).state := by
    simp [State.group, drained, startedAt, sealedAt]
  have hkept : completedAt g (startedAt g [] (sealedAt g s)) = drained g (startedAt g [] (sealedAt g s)) :=
    if_neg (hstate ▸ hst)
  rw [hkept]
  exact .rests (.inr (.inl rfl))

/-! ## Boundary events at timer steps (R49 to R52) -/

/-- A STOPPED timer ignores the count event (R102). -/
theorem exec_timerStep_stopped {t : Fin 4} {s : State} (h : (s.timer t).running = false) :
    exec (.timerStep t) s = .next s :=
  congrArg Host.Outcome.next (if_neg (by simp [h]))

/-- The step of a RUNNING timer that emits a chosen seal source is followed by its boundary event (R49, R102). -/
theorem exec_timerStep_boundary {t : Fin 4} {s u : State} (hr : (s.timer t).running = true)
    (hc : (s.group t).cfg.sources.chosenBy (s.timer t).emits = true)
    (hu : BoundaryGives t { s with timers := s.timers.set t (Timer.step { s.timer t with prescale := 0 }) } u) :
    exec (.timerStep t) s = .next u := by
  have h := execTimerStep_spec t s hr
  rw [if_pos hc, boundary_of hu] at h
  exact h

/-- Settles O29, by what a boundary event can give. -/
theorem boundaryEventSealsOrOverruns : Obligations.BoundaryEventSealsOrOverruns := by
  refine fun s s1 t => ⟨exec_timerStep_stopped, fun hr hc hs1 => ?_⟩
  subst hs1
  have gives := fun {u : State} => exec_timerStep_boundary (u := u) hr hc
  refine ⟨fun hst => gives (.ignored hst), fun hst hh => gives (.overrun hst hh),
    fun hst hh ho he => gives (.passes hst hh ho he), fun hst hh ho => ?_⟩
  have seals := fun {u : State} hu => gives (u := u) (.seals hst hh ho hu)
  have hon : (s.group t).state ≠ .stopping := by simp [hst]
  exact ⟨fun u => seals, fun hw => seals (startTest_sealedAt_waits hw), fun hch he hq =>
    ⟨fun hopen => seals (startTest_sealedAt_starts hch he hq hopen), fun hnone hw =>
      seals (startTest_sealedAt_completes hch he hq hon hnone hw)⟩⟩

/-! ## SEAL (R55) -/

theorem exec_sealGroup {s : State} {g : Fin 4} {crc : Byte}
    (h : RequestReady s [0x03, 0x12, BitVec.ofNat 8 g.val] crc) : exec (.sealGroup (BitVec.ofNat 8 g.val) crc) s =
      .next (replied (sealAction g s).reply.bytes (sealAction g s).state) :=
  exec_groupAction (a := .sealGroup) rfl rfl rfl h

theorem sealAction_wrongState {s : State} {g : Fin 4} (h : (s.group g).state = .disabled ∨ (s.group g).state = .stopping) :
    sealAction g s = refuse .wrongState s := by
  unfold sealAction
  rcases h with h | h <;> rw [h]

/-- A group that admits is sealed, or it has a sealed epoch and is BUSY (R55). -/
theorem sealAction_admitting {s : State} {g : Fin 4} (h : (s.group g).state = .running ∨ (s.group g).state = .faulted) :
    sealAction g s = if (s.group g).hasSealed then refuse .busy s else done (sealGroup g s) := by
  unfold sealAction
  rcases h with h | h <;> rw [h]

/-- Settles O48, by the refusals and the outcomes of the start test. -/
theorem sealActionSealsTheOpenEpoch : Obligations.SealActionSealsTheOpenEpoch := by
  intro s sealedState g crc h
  rw [exec_sealGroup h]
  refine ⟨fun hst => by rw [sealAction_wrongState hst]; rfl, fun hst hh => by rw [sealAction_admitting hst, if_pos hh]; rfl,
    fun hst hh hsealed => ?_⟩
  obtain rfl : sealedState = sealedAt g s := hsealed
  have hdone : sealAction g s = done (sealGroup g s) := by rw [sealAction_admitting hst, if_neg (by simp [hh])]
  have seals : ∀ {u : State}, StartTest (sealedAt g s) u →
      (.next (replied (sealAction g s).reply.bytes (sealAction g s).state) : Host.Outcome State Fault Refusal) =
        .next (replied [0xC0] u) := fun hu => by rw [hdone, sealGroup_of hu]; rfl
  refine ⟨fun u => seals, fun hw => seals (startTest_sealedAt_waits hw), fun hc he hq =>
    ⟨fun hopen => seals (startTest_sealedAt_starts hc he hq hopen), fun hnone hw => ?_⟩⟩
  rw [seals (startTest_sealedAt_completes hc he hq (by rcases hst with hst | hst <;> simp [hst]) hnone hw)]
  simp [drained, sealedAt, State.group]

end Sys2Proof.Machine

namespace Sys2Proof.Machine

/-! ## The laws at State.reset (R182)

Every table holds its reset value in each place, and every queue is empty. The laws of the staging path, the quotas and
the table at State.reset are `reset_law`, `reset_quota` and `reset_table`. -/

theorem reset_group (g : Fin 4) : State.reset.group g = GroupRec.reset := Four.get_all _ g

theorem reset_timer (t : Fin 4) : State.reset.timer t = Timer.reset := Four.get_all _ t

theorem reset_line (g : Fin 4) : State.reset.lines.get g = Line.reset := Four.get_all _ g

theorem reset_limits : WithinLimits State.reset ∧ WriteCountAgrees State.reset := by decide

theorem reset_epochs : EpochsAgree State.reset :=
  (epochsAgree_iff _).mpr fun g => by rw [reset_group]; exact .fresh _

theorem reset_timers : TimersSound State.reset := fun t => by rw [reset_timer]; decide

theorem reset_pairing : PairingSound State.reset := fun t => by rw [reset_group, reset_timer]; rfl

theorem reset_lines : LinesSound State.reset := fun g => by rw [reset_line]; decide

theorem reset_tick : TickSound State.reset := by decide

theorem reset_staging : StagingSound State.reset := (stagingSound_iff _).mpr (reset_law _)

theorem reset_tableSound : TableSound State.reset := (tableSound_iff _).mpr ⟨reset_law _, reset_table⟩

theorem reset_ports : PortsSound State.reset :=
  ⟨by decide, ⟨rfl, List.nodup_nil, rfl⟩, ⟨rfl, List.nodup_nil, rfl⟩⟩

theorem reset_engine : EngineSound State.reset :=
  (engineSound_iff _).mpr ⟨(reset_law fun _ => True).counts, .of_reset rfl rfl rfl rfl (fun _ h => by cases h) fun g => by
    rw [reset_group]; rfl⟩

theorem reset_fence : FenceSound State.reset := ⟨reset_staging, reset_apart, reset_engine, .nil⟩

/-- Settles O51, law by law. RSTn is not asserted, so it holds nothing. -/
theorem resetIsSound : Obligations.ResetIsSound := by
  obtain ⟨hlimits, hwrites⟩ := reset_limits
  obtain ⟨hquota, hentries⟩ := reset_quota
  exact ⟨hlimits, hwrites, reset_epochs, reset_timers, reset_pairing, reset_lines, reset_tick, hquota, hentries,
    reset_tableSound, reset_ports, reset_fence, fun _ _ => rfl, fun h => by cases h⟩

end Sys2Proof.Machine

namespace Sys2Proof.Machine

/-! ## Accepting the offered requests (R123) -/

/-- What no acceptance changes, and what does not speak of the requests still waiting outside, holds of a port once it has
accepted all it has room for. -/
theorem acceptOffered_keeps {P : Port → Prop} (hwaits : ∀ p l, P p → P { p with offered := l })
    (haccepts : ∀ p r, p.slots.length < 4 → P p → P (p.accept r)) (l : List Request) {p : Port} (h : P p) :
    P (acceptOffered l p) := by
  induction l generalizing p with
  | nil => exact hwaits p [] h
  | cons r rest ih =>
    by_cases hroom : p.slots.length < 4
    · rw [acceptOffered_room hroom]
      exact ih (haccepts p r hroom h)
    · rw [acceptOffered_full (Nat.not_lt.mp hroom)]
      exact hwaits p _ h

@[simp] theorem acceptOffered_delivered (l : List Request) (p : Port) : (acceptOffered l p).delivered = p.delivered :=
  acceptOffered_keeps (P := fun q => q.delivered = p.delivered) (fun _ _ => id) (fun _ _ _ => id) l rfl

theorem acceptOffered_length_le (l : List Request) {p : Port} (h : p.slots.length ≤ 4) :
    (acceptOffered l p).slots.length ≤ 4 :=
  acceptOffered_keeps (P := fun q => q.slots.length ≤ 4) (fun _ _ => id)
    (fun q r hroom _ => by simpa [Port.accept] using hroom) l h

theorem acceptOffered_ids_nodup (l : List Request) {p : Port} (h : (p.slots.map Slot.id).Nodup) :
    ((acceptOffered l p).slots.map Slot.id).Nodup := by
  refine acceptOffered_keeps (P := fun q => (q.slots.map Slot.id).Nodup) (fun _ _ => id) (fun q r hroom hq => ?_) l h
  have hfree := freeSlot_free hroom
  simp only [Port.accept, List.map_append, List.map_cons, List.map_nil]
  refine List.Nodup.append hq (List.nodup_singleton _) ?_
  rw [List.disjoint_singleton]
  rintro hm
  obtain ⟨sl, hsl, hid⟩ := List.mem_map.mp hm
  exact hfree sl hsl hid

theorem acceptOffered_waiting (l : List Request) {p : Port} (h : ∀ sl ∈ p.slots, sl.phase = .waiting) :
    ∀ sl ∈ (acceptOffered l p).slots, sl.phase = .waiting := by
  refine acceptOffered_keeps (P := fun q => ∀ sl ∈ q.slots, sl.phase = .waiting) (fun _ _ => id) (fun q r _ hq => ?_) l h
  intro sl hsl
  rcases List.mem_append.mp hsl with hsl | hsl
  · exact hq sl hsl
  · rw [List.mem_singleton.mp hsl]

/-- The free slots take the first of the offered requests, in order, and the others go on waiting (R123). -/
theorem acceptOffered_splits (l : List Request) (p : Port) :
    (acceptOffered l p).slots.map Slot.req = p.slots.map Slot.req ++ l.take (4 - p.slots.length) ∧
      (acceptOffered l p).offered = l.drop (4 - p.slots.length) := by
  induction l generalizing p with
  | nil => simp
  | cons r rest ih =>
    by_cases hroom : p.slots.length < 4
    · obtain ⟨htaken, hleft⟩ := ih (p.accept r)
      have hlength : (p.accept r).slots.length = p.slots.length + 1 := by simp [Port.accept]
      have hone : 4 - p.slots.length = 4 - (p.slots.length + 1) + 1 := by omega
      rw [acceptOffered_room hroom, htaken, hleft, hlength, hone]
      simp [Port.accept]
    · rw [acceptOffered_full (Nat.not_lt.mp hroom), Nat.sub_eq_zero_of_le (Nat.not_lt.mp hroom)]
      simp

/-! ## RSTn (R139, R170, R182) -/

/-- A low period of MCSn that has begun is ignored to its end (R170). -/
theorem Mgmt.hardReset_eq (m : Mgmt) :
    m.hardReset = if m.phase = .idle then ⟨.idle, [], none, [], none⟩ else ⟨.ignored, [], none, [], none⟩ := by
  unfold Mgmt.hardReset
  cases m.phase <;> rfl

theorem releaseReset_spec (s : State) :
    (s.inReset = false → releaseReset s = s) ∧
    (s.inReset = true → releaseReset s = { s with
      inReset := false
      syncRef := s.syncLine
      hp := acceptOffered s.hp.offered s.hp
      cp := acceptOffered s.cp.offered s.cp }) :=
  ⟨fun h => by simp [releaseReset, h], fun h => by simp [releaseReset, h]⟩

/-- An empty port takes the first four of the requests offered to it, each into a slot of its own (R123). -/
theorem acceptOffered_empty {p : Port} (h : p.slots = []) (l : List Request) :
    (acceptOffered l p).slots.map Slot.req = l.take 4 ∧ (acceptOffered l p).offered = l.drop 4 ∧
      (acceptOffered l p).delivered = p.delivered ∧ (∀ sl ∈ (acceptOffered l p).slots, sl.phase = .waiting) ∧
      ((acceptOffered l p).slots.map Slot.id).Nodup := by
  obtain ⟨htaken, hleft⟩ := acceptOffered_splits l p
  exact ⟨by simpa [h] using htaken, by simpa [h] using hleft, acceptOffered_delivered l p,
    acceptOffered_waiting l (by simp [h]), acceptOffered_ids_nodup l (by simp [h])⟩

/-- Settles O5, by what RSTn resets and by what an empty port accepts. -/
theorem rstnHoldsAndReleasesThePart : Obligations.RstnHoldsAndReleasesThePart := by
  refine ⟨fun s => ⟨hardReset s, rfl, rfl, ?_, ?_, fun g => ?_⟩, fun s => ⟨fun hr => ?_, fun hr hhp hcp => ?_⟩⟩
  · rw [← Mgmt.hardReset_eq]
    rfl
  · have hflags : (hardReset s).attn = State.reset.attn := rfl
    rw [hflags]
    decide
  · have hline : (hardReset s).lines.get g = Line.reset := reset_line g
    rw [hline]
    rfl
  · exact congrArg Host.Outcome.next ((releaseReset_spec s).1 hr)
  · obtain ⟨hreqs, hoff, hdel, hwait, hids⟩ := acceptOffered_empty hhp s.hp.offered
    obtain ⟨creqs, coff, cdel, cwait, cids⟩ := acceptOffered_empty hcp s.cp.offered
    exact ⟨_, _, congrArg Host.Outcome.next ((releaseReset_spec s).2 hr), hreqs, hoff, hdel, hwait, hids, creqs, coff,
      cdel, cwait, cids⟩

end Sys2Proof.Machine

namespace Sys2Proof.Machine

/-! ## The grant of a commit write (R65 to R67) -/

/-- An access seen by the monitors leaves all but the monitors and the flags (R143). -/
theorem observe_eq (stream : Requester) (k : Kind) (words : List Addr) (s : State) : observe stream k words s =
    { s with monitors := (observe stream k words s).monitors, events := (observe stream k words s).events } :=
  observe_frame (fun t => { t with
    monitors := (observe stream k words s).monitors, events := (observe stream k words s).events })
    (fun _ _ _ => rfl) stream k words s

/-- While a group drains, the engine offers the oldest word of the *retry list*, or else the group's oldest SEALED entry
not issued (R65). -/
theorem engineOffer_draining {s : State} {g : Fin 4} {e : Entry} (hg : s.engine.state = .draining g)
    (hretry : ∀ (a : Addr) (more : List Addr), s.engine.retry = a :: more →
      s.queue.find? (Entry.at g .sealed a) = some e)
    (hfirst : s.engine.retry = [] →
      s.queue.find? (fun x => x.group == g && x.role == .sealed && x.issue == .notIssued) = some e) :
    engineOffer s = some e := by
  unfold engineOffer
  cases hr : s.engine.retry with
  | nil => simpa only [hg] using hfirst hr
  | cons a more => simpa only [hg] using hretry a more hr

theorem engineOffer_group {s : State} {g : Fin 4} {e : Entry} (hg : s.engine.state = .draining g)
    (ho : engineOffer s = some e) : e.group = g := by
  obtain ⟨k, hk, ⟨a, more, -, hf⟩ | ⟨-, hf⟩⟩ := engineOffer_cases ho <;> cases hg.symm.trans hk <;>
    have hp := List.find?_some hf
  · simp only [Entry.at, Bool.and_eq_true, beq_iff_eq] at hp
    exact hp.1.1
  · simp only [Bool.and_eq_true, beq_iff_eq] at hp
    exact hp.1.1

/-- What the monitors make of an access depends on the monitors, the flags, and what a stamp reads (R143, R146). -/
theorem MonitorsSee.congr {stream : Requester} {k : Kind} {words : List Addr} {s s' t : State}
    (hm : s'.monitors = s.monitors) (he : s'.events = s.events) (ht : s'.timers = s.timers) (hg : s'.groups = s.groups)
    (h : MonitorsSee stream k words s' t) : MonitorsSee stream k words s t := by
  unfold MonitorsSee at h ⊢
  simpa only [hm, he, State.timer_congr ht, State.group_congr hg] using h

/-- The monitors see a granted commit write in the CE stream, and nothing they read is changed by its placing (R145). -/
theorem grantEngine_sees (e : Entry) (s : State) : MonitorsSee .ce .write [e.addr] s (grantEngine e s) := by
  unfold grantEngine
  refine MonitorsSee.congr ?_ ?_ ?_ ?_ (observe_sees .ce .write [e.addr] _) <;> rfl

theorem grant_engine {s : State} {e : Entry} (hc : chosen s = some .ce) (ho : engineOffer s = some e) :
    grant s = grantEngine e s := by
  simp only [grant, hc, ho]

/-- The engine waits for the grant while its *commit write count* is below 4 (R66). -/
theorem writeCount_lt_of_chosen {s : State} (h : chosen s = some .ce) : s.engine.writeCount < 4 := by
  have hwaits := chosen_waits h
  simp only [waits, Bool.and_eq_true, decide_eq_true_eq] at hwaits
  exact hwaits.2

/-- Settles O16, by what the engine offers and by what the monitors see. -/
theorem memoryGrantIssuesACommitWrite : Obligations.MemoryGrantIssuesACommitWrite := by
  intro s g e hc hg hretry hfirst
  have ho := engineOffer_draining hg hretry hfirst
  have hgroup := engineOffer_group hg ho
  refine ⟨writeCount_lt_of_chosen hc, grantEngine e s, congrArg Host.Outcome.next (grant_engine hc ho),
    grantEngine_sees e s, ?_⟩
  have hmark : ∀ x : Entry, e.markIssued x = if (x.group = g ∧ x.role = .sealed ∧ x.addr = e.addr) ∧
      x.issue = .notIssued then { x with issue := .issued } else x := fun x => by
    simp only [Entry.markIssued, Entry.at, Bool.and_eq_true, beq_iff_eq, and_assoc, hgroup]
  rw [← funext hmark, ← hgroup]
  exact observe_eq _ _ _ _

end Sys2Proof.Machine

namespace Sys2Proof.Machine

/-! ## The answer to a commit write (R68 to R75) -/

/-- The answer of the oldest record, when it is a commit write of the current drain, goes to the record's entry (R132). -/
theorem exec_commitAnswer {s : State} {x : IssueRec} {rest : List IssueRec} {y : EntryRef} (a : AnswerStatus)
    (data : List Word) (hi : s.issue = x :: rest) (hr : x.requester = .ce) (ho : x.orphan = false)
    (hy : x.entry = some y) : exec (.memoryAnswer a data) s = .next (commitAnswer y a { s with
      issue := rest, engine := { s.engine with writeCount := s.engine.writeCount - 1 } }) := by
  simp [exec, execMemoryAnswer, takeAnswer, hi, routeAnswer, ho, hr, hy, departRecord]

/-- What an answer makes of the SEALED entry of its record (R69 to R71). -/
theorem commitAnswer_spec {s : State} {g : Fin 4} {a : Addr} {e : Entry}
    (hf : s.queue.find? (Entry.at g .sealed a) = some e) :
    (commitAnswer ⟨g, a⟩ .ok s = testCompletion (retryAdmission (removeSealed g a s))) ∧
    (e.issue = .reissued → commitAnswer ⟨g, a⟩ .error s = testCompletion (retryAdmission (dropSealed g a s))) ∧
    (e.issue = .issued → commitAnswer ⟨g, a⟩ .error s = reissue g a s) :=
  ⟨by simp only [commitAnswer, hf], fun h => by simp only [commitAnswer, hf, h],
    fun h => by simp only [commitAnswer, hf, h]⟩

/-- A SEALED entry with no other at its group and word before it is the one found there (R23). -/
theorem find_sealed_split {l1 l2 : List Entry} {e : Entry} {g : Fin 4} (hg : e.group = g) (hs : e.role = .sealed)
    (hno : ∀ y ∈ l1 ++ l2, y.at g .sealed e.addr = false) :
    (l1 ++ e :: l2).find? (Entry.at g .sealed e.addr) = some e :=
  List.find?_eq_some_iff_append.mpr ⟨by simp [Entry.at, hg, hs], l1, l2, rfl, fun y hy => by simp [hno y (by simp [hy])]⟩

theorem eraseP_sealed_split {l1 l2 : List Entry} {e : Entry} {g : Fin 4} (hg : e.group = g) (hs : e.role = .sealed)
    (hno : ∀ y ∈ l1 ++ l2, y.at g .sealed e.addr = false) :
    (l1 ++ e :: l2).eraseP (Entry.at g .sealed e.addr) = l1 ++ l2 := by
  rw [List.eraseP_append_right _ fun y hy => by simp [hno y (by simp [hy])],
    List.eraseP_cons_of_pos (by simp [Entry.at, hg, hs])]

/-- A first ERROR marks that entry alone (R70). -/
theorem map_markReissued_split {l1 l2 : List Entry} {e : Entry} {g : Fin 4} (hg : e.group = g) (hs : e.role = .sealed)
    (hno : ∀ y ∈ l1 ++ l2, y.at g .sealed e.addr = false) :
    (l1 ++ e :: l2).map (Entry.markReissued g e.addr) = l1 ++ { e with issue := .reissued } :: l2 := by
  have others : ∀ y ∈ l1 ++ l2, y.markReissued g e.addr = y := fun y hy => by simp [Entry.markReissued, hno y hy]
  have hl1 : l1.map (Entry.markReissued g e.addr) = l1 :=
    (List.map_congr_left fun y hy => others y (by simp [hy])).trans (List.map_id _)
  have hl2 : l2.map (Entry.markReissued g e.addr) = l2 :=
    (List.map_congr_left fun y hy => others y (by simp [hy])).trans (List.map_id _)
  simp [hl1, hl2, Entry.markReissued, Entry.at, hg, hs]

/-- The queue and the group once the SEALED entry is removed (R40). -/
theorem removeSealed_split {s : State} {l1 l2 : List Entry} {e : Entry} {g : Fin 4} (hq : s.queue = l1 ++ e :: l2)
    (hg : e.group = g) (hs : e.role = .sealed) (hno : ∀ y ∈ l1 ++ l2, y.at g .sealed e.addr = false) :
    removeSealed g e.addr s = { s with
      queue := l1 ++ l2
      groups := s.groups.set g { s.group g with sealedCount := (s.group g).sealedCount - 1 } } := by
  rw [removeSealed, hq, eraseP_sealed_split hg hs hno]
  rfl

/-- The queue, the group and the flags once the SEALED entry is dropped (R71, R72, R19). -/
theorem dropSealed_split {s : State} {l1 l2 : List Entry} {e : Entry} {g : Fin 4} (hq : s.queue = l1 ++ e :: l2)
    (hg : e.group = g) (hs : e.role = .sealed) (hno : ∀ y ∈ l1 ++ l2, y.at g .sealed e.addr = false) :
    dropSealed g e.addr s = ({ s with
      queue := l1 ++ l2
      groups := s.groups.set g { s.group g with
        sealedCount := (s.group g).sealedCount - 1
        state := if (s.group g).state = .running then .faulted else (s.group g).state
        fault := if (s.group g).fault.valid then
            { (s.group g).fault with dropped := min ((s.group g).fault.dropped + 1) 255 }
          else ⟨true, e.addr, (s.group g).openEpoch - 1, 1⟩ } } : State).cause (.fault g) := by
  rw [dropSealed, removeSealed_split hq hg hs hno]
  simp only [State.modGroup, Four.modify, Four.set_set, Four.get_set, if_true]
  rfl

/-- An admission makes no SEALED entry and removes none (R26). -/
theorem hasSealedEntry_admitWords (g k : Fin 4) (r : Request) (q : List Entry) :
    hasSealedEntry (admitWords g r q) k = hasSealedEntry q k := by
  have same : ∀ e : Entry, (touchedBy g (requestBeats r) e).group = e.group ∧
      (touchedBy g (requestBeats r) e).role = e.role := fun e =>
    ⟨(touchedBy_key g _ e).1, (touchedBy_key g _ e).2.1⟩
  simp [hasSealedEntry, admitWords_eq, List.any_map, Function.comp_def, same, newEntry]

/-- The retry of a held admission leaves the engine, the issue list and the SEALED entries (R31). -/
theorem retryAdmission_frame (s : State) : (retryAdmission s).engine = s.engine ∧ (retryAdmission s).issue = s.issue ∧
    ∀ g, hasSealedEntry (retryAdmission s).queue g = hasSealedEntry s.queue g := by
  unfold retryAdmission
  split
  · split
    · exact ⟨by simp, by simp, fun g => by simp [hasSealedEntry_admitWords]⟩
    · exact ⟨rfl, rfl, fun _ => rfl⟩
  · exact ⟨rfl, rfl, fun _ => rfl⟩

/-- While a SEALED entry of the group is left, the answer does not end the drain (R73). -/
theorem testCompletion_retry_goesOn {t : State} {g : Fin 4} (hg : t.engine.state = .draining g)
    (hleft : hasSealedEntry t.queue g = true) : testCompletion (retryAdmission t) = retryAdmission t := by
  obtain ⟨he, -, hq⟩ := retryAdmission_frame t
  exact (testCompletion_spec _).2.1 g (by rw [he, hg]) (by simp [drainDone, hq, hleft])

/-- With no SEALED entry and no commit write of the group left, the answer completes the drain, and the start test
follows (R73 to R75). -/
theorem testCompletion_retry_completes {t u : State} {g : Fin 4} (hg : t.engine.state = .draining g)
    (hleft : hasSealedEntry t.queue g = false) (hw : writeOutstanding t.issue g = false)
    (hu : StartTest (completedAt g (retryAdmission t)) u) : testCompletion (retryAdmission t) = u := by
  obtain ⟨he, hi, hq⟩ := retryAdmission_frame t
  rw [(testCompletion_spec _).2.2 g (by rw [he, hg]) (by simp [drainDone, hq, hleft, hi, hw]), finishDrain_eq,
    testStart_of hu]

/-- A first ERROR makes the entry reissued and puts its word on the *retry list* (R70). -/
theorem reissue_split {s : State} {l1 l2 : List Entry} {e : Entry} {g : Fin 4} (hq : s.queue = l1 ++ e :: l2)
    (hg : e.group = g) (hs : e.role = .sealed) (hno : ∀ y ∈ l1 ++ l2, y.at g .sealed e.addr = false) :
    reissue g e.addr s = { s with
      queue := l1 ++ { e with issue := .reissued } :: l2
      engine := { s.engine with retry := retryWith s.queue g e.addr s.engine.retry } } := by
  rw [reissue, hq, map_markReissued_split hg hs hno]

/-- Settles O21, by what an answer makes of its entry and by the SEALED entry that is left. -/
theorem commitAnswerFollowsTheEntry : Obligations.CommitAnswerFollowsTheEntry := by
  intro s base x rest g e l1 l2 data hi hr ho hy hg hq heg hes hno hbase
  have hbq : base.queue = l1 ++ e :: l2 := by rw [hbase]; exact hq
  have hbg : base.engine.state = .draining g := by rw [hbase]; exact hg
  obtain ⟨hok, hdrop, hre⟩ := commitAnswer_spec (s := base) (g := g) (hbq ▸ find_sealed_split heg hes hno)
  rw [exec_commitAnswer .error data hi hr ho hy, exec_commitAnswer .ok data hi hr ho hy, ← hbase]
  refine ⟨fun hissue => ?_, fun hleft => ?_⟩
  · rw [hre hissue, reissue_split hbq heg hes hno, hbase]
    rfl
  · have goesOn : ∀ {t : State}, t.engine.state = .draining g → t.queue = l1 ++ l2 →
        testCompletion (retryAdmission t) = retryAdmission t := fun ht htq =>
      testCompletion_retry_goesOn ht (htq ▸ hleft)
    refine ⟨fun _ => ?_, fun hissue => ?_⟩
    · rw [hok, removeSealed_split hbq heg hes hno, goesOn (by exact hbg) rfl, hbase]
      rfl
    · rw [hdrop hissue, dropSealed_split hbq heg hes hno, goesOn (by exact hbg) rfl, hbase]
      rfl

/-- Settles O22, by what an answer makes of its entry and by the completion that follows it. -/
theorem lastCommitAnswerCompletesTheDrain : Obligations.LastCommitAnswerCompletesTheDrain := by
  intro s base r u x rest g e l1 l2 a data hi hr ho hy hg hq heg hes hlast hw hbase hcase hu
  have hno : ∀ y ∈ l1 ++ l2, y.at g .sealed e.addr = false := fun y hm => by
    have hother := List.any_eq_false.mp hlast y hm
    simp [Entry.at, Bool.eq_false_iff.mpr hother]
  obtain ⟨d, hd⟩ : ∃ d : State, d = { s with
      issue := rest, engine := { s.engine with writeCount := s.engine.writeCount - 1 } } := ⟨_, rfl⟩
  have hdq : d.queue = l1 ++ e :: l2 := by rw [hd]; exact hq
  obtain ⟨hok, hdrop, -⟩ := commitAnswer_spec (s := d) (g := g) (hdq ▸ find_sealed_split heg hes hno)
  rw [exec_commitAnswer a data hi hr ho hy, ← hd]
  rcases hcase with ⟨rfl, -, hret⟩ | ⟨rfl, hissue, hret⟩
  · rw [hok, removeSealed_split hdq heg hes hno]
    subst hbase hret hd
    exact congrArg _ (testCompletion_retry_completes (g := g) hg hlast hw hu)
  · rw [hdrop hissue, dropSealed_split hdq heg hes hno]
    subst hbase hret hd
    exact congrArg _ (testCompletion_retry_completes (g := g) hg hlast hw hu)

end Sys2Proof.Machine

namespace Sys2Proof.Machine

/-! ## DRAIN_START and CHOLD (R63, R64) -/

theorem exec_drainStart {s u : State} (h : StartTest s u) : exec .drainStart s = .next u :=
  congrArg Host.Outcome.next (testStart_of h)

/-- The release of CHOLD brings the start test (R63, R64). -/
theorem exec_choldRelease {s u : State} (hc : s.chold = true) (h : StartTest { s with chold := false } u) :
    exec (.choldChange false) s = .next u := by
  have hset : choldSet false s = testStart { s with chold := false } := by simp [choldSet, hc]
  exact congrArg Host.Outcome.next (hset.trans (testStart_of h))

/-- CHOLD that is not asserted is not released. -/
theorem exec_choldRelease_none {s : State} (hc : s.chold = false) : exec (.choldChange false) s = .next s := by
  have hset : choldSet false s = { s with chold := false } := by simp [choldSet, hc]
  exact congrArg Host.Outcome.next (hset.trans (by rw [← hc]))

/-- Whichever event brings the start test, it finds the state with CHOLD not asserted (R63, R64). -/
theorem exec_starts {s u : State} (h : StartTest { s with chold := false } u) :
    (s.chold = true → exec (.choldChange false) s = .next u) ∧ (s.chold = false → exec .drainStart s = .next u) :=
  ⟨fun hc => exec_choldRelease hc h, fun hc => exec_drainStart (by rwa [← hc] at h)⟩

/-- A group that is not STOPPING is passed over at its completion (R58, R74). -/
theorem completedAt_startedAt {s : State} {g : Fin 4} (rest : List (Fin 4)) (hst : (s.group g).state ≠ .stopping) :
    completedAt g (startedAt g rest s) = drained g (startedAt g rest s) := by
  have hstate : ((drained g (startedAt g rest s)).group g).state = (s.group g).state := by
    simp [State.group, drained, startedAt]
  exact if_neg (hstate ▸ hst)

/-- Settles O23, by the outcomes of the start test. -/
theorem drainStartsAtTheStartTest : Obligations.DrainStartsAtTheStartTest := by
  refine ⟨fun s => ⟨?_, exec_choldRelease_none, startTest_total s, fun u => exec_drainStart, fun u => exec_choldRelease,
    fun h => exec_drainStart (.rests h), fun h => ?_, fun g rest he hq hs => ?_⟩, fun s c g rest he hq hs hw hst hc => ?_⟩
  · have hset : choldSet true s = { s with chold := true } := by simp [choldSet]
    exact congrArg Host.Outcome.next hset
  · cases hc : s.chold with
    | true => exact exec_choldRelease hc (.rests (h.elim .inl fun hq => .inr (.inl hq)))
    | false => rw [exec_choldRelease_none hc, ← hc]
  · have starts : StartTest { s with chold := false } _ := .starts he hq rfl (.inl hs)
    obtain ⟨release, start⟩ := exec_starts starts
    refine ⟨fun hc => ?_, release⟩
    rw [start hc, startedAt, ← hc]
  · have hon : (({ s with chold := false } : State).group g).state ≠ .stopping := by
      rcases hst with hst | hst <;> exact fun h => by cases hst.symm.trans h
    have hdone : completedAt g (startedAt g rest { s with chold := false }) = c := by
      rw [completedAt_startedAt rest hon, hc]
      rfl
    have completes : ∀ {u : State}, StartTest c u → StartTest { s with chold := false } u := fun hu =>
      .completes he hq rfl hs hw (hdone ▸ hu)
    have hcreq : c.commitReq = rest := by rw [hc]
    have hcidle : c.engine.state = .idle := by rw [hc]
    refine ⟨fun hrest => exec_starts (completes (.rests (.inr (.inl (hcreq.trans hrest))))), fun h more hmore hh => ?_⟩
    have starts : StartTest c (startedAt h more c) :=
      .starts hcidle (hcreq.trans hmore) (by rw [hc]) (.inl (by rw [hc]; exact hh))
    have hengine : startedAt h more c = { c with
        commitReq := more, engine := { s.engine with state := .draining h, retry := [] } } := by
      rw [startedAt, hc]
    exact hengine ▸ exec_starts (completes starts)

end Sys2Proof.Machine

namespace Sys2Proof.Machine

/-! ## What the limits and the start test read (R62, R63, R66, R123, R130) -/

/-- What the limits speak of, with RSTn: the records outstanding, the *commit write count*, and how many slots of each
port are occupied. -/
def State.loads (s : State) : Bool × List IssueRec × Nat × Nat × Nat :=
  (s.inReset, s.issue, s.engine.writeCount, s.hp.slots.length, s.cp.slots.length)

/-- What the start test reads of a state before it looks for entries: CHOLD, the commit request queue, the engine. -/
def State.startInputs (s : State) : Bool × List (Fin 4) × EngineState := (s.chold, s.commitReq, s.engine.state)

/-- The limits of R62, R66, R123 and R130. -/
def Limits (s : State) : Prop := WithinLimits s ∧ WriteCountAgrees s

/-- Neither the limits nor the start test see a difference. -/
def Quiet (s t : State) : Prop := t.loads = s.loads ∧ t.startInputs = s.startInputs

/-- A step that is no reset keeps RSTn as it is and the limits, and leaves no start undone where none was. -/
structure Orderly (s t : State) : Prop where
  inReset : t.inReset = s.inReset
  limits : Limits s → Limits t
  starts : NoStartLeft s → NoStartLeft t

theorem Limits.of_loads {s t : State} (h : t.loads = s.loads) (hs : Limits s) : Limits t := by
  simp only [State.loads, Prod.mk.injEq] at h
  obtain ⟨-, hissue, hcount, hhp, hcp⟩ := h
  simpa only [Limits, WithinLimits, WriteCountAgrees, hissue, hcount, hhp, hcp] using hs

theorem inReset_of_loads {s t : State} (h : t.loads = s.loads) : t.inReset = s.inReset := congrArg Prod.fst h

theorem NoStartLeft.of_inputs {s t : State} (h : t.startInputs = s.startInputs) (hs : NoStartLeft s) : NoStartLeft t := by
  simp only [State.startInputs, Prod.mk.injEq] at h
  obtain ⟨hchold, hreq, hengine⟩ := h
  simpa only [NoStartLeft, hchold, hreq, hengine] using hs

theorem Quiet.refl (s : State) : Quiet s s := ⟨rfl, rfl⟩

theorem Quiet.trans {s t u : State} (h1 : Quiet s t) (h2 : Quiet t u) : Quiet s u :=
  ⟨h2.1.trans h1.1, h2.2.trans h1.2⟩

theorem Quiet.orderly {s t : State} (h : Quiet s t) : Orderly s t :=
  ⟨inReset_of_loads h.1, .of_loads h.1, .of_inputs h.2⟩

theorem Orderly.refl (s : State) : Orderly s s := ⟨rfl, id, id⟩

theorem Orderly.trans {s t u : State} (h1 : Orderly s t) (h2 : Orderly t u) : Orderly s u :=
  ⟨h2.inReset.trans h1.inReset, fun h => h2.limits (h1.limits h), fun h => h2.starts (h1.starts h)⟩

theorem Orderly.foldl {α : Type} {f : State → α → State} (hf : ∀ s a, Orderly s (f s a)) (l : List α) (s : State) :
    Orderly s (l.foldl f s) := by
  induction l generalizing s with
  | nil => exact .refl s
  | cons a l ih => exact (hf s a).trans (ih _)

/-! ## Ports and admission -/

theorem setHead_quiet (p : PortId) (ph : SlotPhase) (s : State) : Quiet s (s.setHead p ph) := by
  cases p <;> simp [Quiet, State.loads, State.startInputs, Port.setHead_slots]

theorem observe_quiet (stream : Requester) (k : Kind) (words : List Addr) (s : State) :
    Quiet s (observe stream k words s) := by
  simp [Quiet, State.loads, State.startInputs]

theorem admitted_quiet (g : Fin 4) (r : Request) (ph : SlotPhase) (s : State) :
    Quiet s ((admitWrite g r s).setHead .hp ph) :=
  Quiet.trans (t := admitWrite g r s) ⟨rfl, rfl⟩ (setHead_quiet _ _ _)

theorem offerAdmission_quiet (cls : ReqClass) (g : Fin 4) (policy : FullPolicy) (r : Request) (s : State) :
    Quiet s (offerAdmission cls g policy r s) := by
  unfold offerAdmission
  split
  · exact admitted_quiet g r _ s
  · exact setHead_quiet _ _ s

theorem retryAdmission_quiet (s : State) : Quiet s (retryAdmission s) := by
  unfold retryAdmission
  split
  · split
    · exact admitted_quiet _ _ _ s
    · exact .refl s
  · exact .refl s

theorem expireHold_quiet (s : State) : Quiet s (expireHold s) := by
  unfold expireHold
  split
  · split
    · split
      · exact setHead_quiet _ _ s
      · exact .refl s
    · exact .refl s
  · exact .refl s

theorem tickHold_quiet (s : State) : Quiet s (tickHold s) := by
  unfold tickHold
  split
  · split
    · split
      · exact expireHold_quiet s
      · exact setHead_quiet _ _ s
    · exact .refl s
  · exact .refl s

theorem handleHost_quiet (cls : ReqClass) (r : Request) (s : State) : Quiet s (handleHost cls r s) := by
  cases cls with
  | bypassed => exact setHead_quiet _ _ s
  | outside => exact setHead_quiet _ _ s
  | locked n => cases hk : r.kind <;> simp only [handleHost, hk] <;> exact setHead_quiet _ _ s
  | staged n g fwd policy =>
    simp only [handleHost]
    split
    · exact setHead_quiet _ _ s
    · exact offerAdmission_quiet _ _ _ _ s
    · exact offerAdmission_quiet _ _ _ _ s
    · exact setHead_quiet _ _ s
    all_goals split <;> exact setHead_quiet _ _ s

theorem handleConsumer_quiet (cls : ReqClass) (r : Request) (s : State) : Quiet s (handleConsumer cls r s) := by
  unfold handleConsumer
  split
  · exact setHead_quiet _ _ s
  · split <;> exact setHead_quiet _ _ s
  · exact setHead_quiet _ _ s

theorem processHead_quiet (p : PortId) (s : State) : Quiet s (processHead p s) := by
  unfold processHead
  split
  · split
    next sl _ _ _ =>
      refine (observe_quiet (PortId.requester p) sl.req.kind (monitoredWords sl.req) s).trans ?_
      unfold examine
      split
      · exact setHead_quiet _ _ _
      · cases p
        · exact handleHost_quiet _ _ _
        · exact handleConsumer_quiet _ _ _
    all_goals exact .refl s
  · exact .refl s

theorem reexamineHost_quiet (g : Fin 4) (s : State) : Quiet s (reexamineHost g s) := by
  unfold reexamineHost
  split
  · split
    · split
      · exact setHead_quiet _ _ s
      · split
        · split
          · exact offerAdmission_quiet _ _ _ _ s
          · split
            · exact setHead_quiet _ _ s
            · exact .refl s
        · exact .refl s
      all_goals exact .refl s
    all_goals exact .refl s
  · exact .refl s

theorem reexamineConsumer_quiet (g : Fin 4) (s : State) : Quiet s (reexamineConsumer g s) := by
  rcases reexamineConsumer_cases g s with ⟨h, -⟩ | ⟨_, _, -, h⟩ <;> rw [h]
  · exact .refl s
  · exact setHead_quiet _ _ s

theorem causeOf_quiet (c : RespCode) (s : State) : Quiet s (causeOf c s) := by
  unfold causeOf
  split <;> exact ⟨rfl, rfl⟩

/-- A port whose slots stay within four keeps the limits, and the start test does not read it (R123). -/
theorem setPort_orderly {p : PortId} {x : Port} {s : State}
    (h : (s.port p).slots.length ≤ 4 → x.slots.length ≤ 4) : Orderly s (s.setPort p x) := by
  refine ⟨by simp, fun ⟨⟨hissue, hhp, hcp⟩, hcount⟩ => ⟨⟨by simpa using hissue, ?_⟩, by simpa [WriteCountAgrees] using hcount⟩,
    .of_inputs (by simp [State.startInputs])⟩
  cases p
  · exact ⟨h hhp, hcp⟩
  · exact ⟨hhp, h hcp⟩

theorem deliver_orderly (p : PortId) (s : State) : Orderly s (deliver p s) := by
  unfold deliver
  split
  · exact .refl s
  next sl rest hslots =>
    split
    · refine (setPort_orderly fun h => acceptOffered_length_le _ ?_).trans (causeOf_quiet _ _).orderly
      rw [hslots, List.length_cons] at h
      exact Nat.le_of_succ_le h
    all_goals exact .refl s

theorem arrive_orderly (p : PortId) (r : Request) (s : State) : Orderly s (arrive p r s) := by
  unfold arrive
  split
  · exact setPort_orderly id
  · exact setPort_orderly (acceptOffered_length_le _)

/-! ## Seals, completions and starts

A seal and a completion leave a start to make. The start test that follows them makes it. -/

theorem releaseHeld_quiet (g : Fin 4) (s : State) : Quiet s (releaseHeld g s) := by
  unfold releaseHeld
  split
  · split
    · exact setHead_quiet _ _ s
    · exact .refl s
  · exact .refl s

theorem convertHold_quiet (g : Fin 4) (s : State) : Quiet s (convertHold g s) := by
  unfold convertHold
  split
  · split
    · exact setHead_quiet _ _ s
    · exact .refl s
  · exact .refl s

theorem reachDisabled_quiet (g : Fin 4) (s : State) : Quiet s (reachDisabled g s) := by
  obtain ⟨m, e, h⟩ := leavingCheck_eq (releaseHeld g (s.inState g .disabled))
  have disables : Quiet s (s.inState g .disabled) := ⟨rfl, rfl⟩
  have checks : Quiet (releaseHeld g (s.inState g .disabled)) (reachDisabled g s) := by
    rw [reachDisabled, h]
    exact ⟨rfl, rfl⟩
  exact (disables.trans (releaseHeld_quiet g _)).trans checks

theorem finishDrain_loads (g : Fin 4) (s : State) : (finishDrain g s).loads = s.loads := by
  have complete : (completeCore g s).loads = s.loads := rfl
  refine Eq.trans ?_ complete
  unfold finishDrain completeStopping
  split
  · split
    · rfl
    · exact (reachDisabled_quiet g _).1
  · rfl

theorem StartTest.loads {s u : State} (h : StartTest s u) : u.loads = s.loads := by
  induction h with
  | rests => rfl
  | starts => rfl
  | completes _ _ _ _ _ _ ih =>
    rw [ih, ← finishDrain_eq, finishDrain_loads]
    rfl

/-- The start test leaves no start undone (R63). -/
theorem StartTest.noStartLeft {s u : State} (h : StartTest s u) : NoStartLeft u := by
  induction h with
  | rests h =>
    intro he hc
    rcases h with h | h | h
    · exact absurd he h
    · exact h
    · cases hc.symm.trans h
  | starts => exact fun he => nomatch he
  | completes _ _ _ _ _ _ ih => exact ih

/-- Whatever is left to start, the start test that follows makes it (R63). -/
theorem testStart_orderly {s t : State} (h : t.loads = s.loads) : Orderly s (testStart t) := by
  obtain ⟨u, hu⟩ := startTest_total t
  rw [testStart_of hu]
  exact ⟨inReset_of_loads (hu.loads.trans h), .of_loads (hu.loads.trans h), fun _ => hu.noStartLeft⟩

theorem sealGroup_orderly (g : Fin 4) (s : State) : Orderly s (sealGroup g s) := testStart_orderly rfl

theorem testCompletion_orderly (s : State) : Orderly s (testCompletion s) := by
  unfold testCompletion
  split
  · split
    · exact testStart_orderly (finishDrain_loads _ s)
    · exact .refl s
  · exact .refl s

theorem boundary_orderly (g : Fin 4) (s : State) : Orderly s (boundary g s) := by
  unfold boundary
  split
  · split
    · exact Quiet.orderly ⟨rfl, rfl⟩
    · split
      · exact sealGroup_orderly g s
      · exact .refl s
  all_goals exact .refl s

theorem disableGroup_orderly (g : Fin 4) (s : State) : Orderly s (disableGroup g s) := by
  have stops : Quiet s (convertHold g (s.inState g .stopping)) :=
    Quiet.trans (t := s.inState g .stopping) ⟨rfl, rfl⟩ (convertHold_quiet g _)
  unfold disableGroup
  split
  · exact (reachDisabled_quiet g s).orderly
  · dsimp only
    split
    · exact stops.orderly.trans (sealGroup_orderly g _)
    · exact stops.orderly

theorem windDown_orderly (s : State) (g : Fin 4) : Orderly s (windDown s g) := by
  unfold windDown
  split
  · exact disableGroup_orderly g s
  · exact disableGroup_orderly g s
  all_goals exact .refl s

/-! ## Grants and answers -/

/-- A record is placed while the list has room (R130); a commit write's is counted, while fewer than four are (R66). -/
theorem Limits.places {s t : State} {r : IssueRec} (h : Limits s) (hroom : s.issue.length < 8)
    (hissue : t.issue = s.issue ++ [r]) (hhp : t.hp.slots = s.hp.slots) (hcp : t.cp.slots = s.cp.slots)
    (hcount : t.engine.writeCount = s.engine.writeCount + (if r.requester = .ce then 1 else 0))
    (hmax : r.requester = .ce → s.engine.writeCount < 4) : Limits t := by
  obtain ⟨⟨-, hhp', hcp'⟩, hagree, hle⟩ := h
  refine ⟨⟨?_, hhp ▸ hhp', hcp ▸ hcp'⟩, ?_, ?_⟩
  · rw [hissue, List.length_append]
    exact hroom
  · rw [hissue, hcount, hagree, List.filter_append, List.length_append]
    by_cases hr : r.requester = .ce <;> simp [hr]
  · rw [hcount]
    split
    next hr => exact hmax hr
    next => exact hle

theorem chosen_room {s : State} {x : Requester} (h : chosen s = some x) : s.issue.length < 8 := by
  unfold chosen at h
  split at h
  next hroom => exact hroom.2
  next => cases h

theorem grantPort_orderly {p : PortId} {sl : Slot} {f : Bool} {s : State} (hroom : s.issue.length < 8) :
    Orderly s (grantPort p sl f s) := by
  have hport : PortId.requester p ≠ .ce := by cases p <;> simp [PortId.requester]
  have places : ∀ {r : IssueRec}, r.requester ≠ .ce →
      Orderly s ({ s with pointer := PortId.requester p }.placeRecord r) := fun hr =>
    ⟨rfl, fun h => h.places hroom rfl rfl rfl (by simp [hr]) fun hce => absurd hce hr, id⟩
  unfold grantPort
  exact (places hport).trans (setHead_quiet p .issued _).orderly

theorem grantEngine_orderly {e : Entry} {s : State} (hroom : s.issue.length < 8) (hmax : s.engine.writeCount < 4) :
    Orderly s (grantEngine e s) :=
  ⟨by simp [grantEngine], fun h => h.places (r := ⟨.ce, commitRequest e, none, none, some ⟨e.group, e.addr⟩, false⟩)
    hroom (by simp [grantEngine]) (by simp [grantEngine]) (by simp [grantEngine]) (by simp [grantEngine]) fun _ => hmax,
    .of_inputs (by simp [State.startInputs, grantEngine])⟩

theorem grant_orderly (s : State) : Orderly s (grant s) := by
  unfold grant
  split
  · exact .refl s
  next hc =>
    split
    · exact grantPort_orderly (chosen_room hc)
    · exact .refl s
  next hc =>
    split
    · exact grantPort_orderly (chosen_room hc)
    · exact .refl s
  next hc =>
    split
    · exact grantEngine_orderly (chosen_room hc) (writeCount_lt_of_chosen hc)
    · exact .refl s

@[simp] theorem departRecord_writeCount (r : IssueRec) (rest : List IssueRec) (s : State) :
    (departRecord r rest s).engine.writeCount = s.engine.writeCount - (if r.requester = .ce then 1 else 0) := by
  unfold departRecord
  split <;> rfl

/-- The oldest record leaves, and a commit write is counted no more (R68, R132). -/
theorem departRecord_orderly {r : IssueRec} {rest : List IssueRec} {s : State} (h : s.issue = r :: rest) :
    Orderly s (departRecord r rest s) := by
  refine ⟨rfl, fun ⟨⟨hlen, hhp, hcp⟩, hagree, hle⟩ => ?_,
    .of_inputs (congrArg (fun x => (s.chold, s.commitReq, x)) (departRecord_engine_state r rest s))⟩
  rw [h] at hlen hagree
  refine ⟨⟨Nat.le_of_succ_le hlen, hhp, hcp⟩, ?_, ?_⟩ <;> rw [departRecord_writeCount]
  · rw [departRecord_issue, hagree]
    by_cases hr : r.requester = .ce <;> simp [hr]
  · exact (Nat.sub_le _ _).trans hle

theorem answerPort_quiet (p : PortId) (r : IssueRec) (ans : AnswerStatus) (data : List Word) (s : State) :
    Quiet s (answerPort p r ans data s) := by
  unfold answerPort
  split
  · exact .refl s
  · cases p <;> simp [Quiet, State.loads, State.startInputs, State.setPort, State.port]

theorem commitAnswer_orderly (x : EntryRef) (ans : AnswerStatus) (s : State) : Orderly s (commitAnswer x ans s) := by
  have settle : ∀ {t : State}, Quiet s t → Orderly s (testCompletion (retryAdmission t)) := fun h =>
    (h.trans (retryAdmission_quiet _)).orderly.trans (testCompletion_orderly _)
  unfold commitAnswer
  split
  · exact .refl s
  · split
    · exact settle ⟨rfl, rfl⟩
    · exact settle ⟨rfl, rfl⟩
    · exact Quiet.orderly ⟨rfl, rfl⟩
    · exact .refl s

theorem takeAnswer_orderly (ans : AnswerStatus) (data : List Word) (s : State) :
    Orderly s (takeAnswer ans data s) := by
  unfold takeAnswer
  split
  · exact .refl s
  next hissue =>
    refine (departRecord_orderly hissue).trans ?_
    unfold routeAnswer
    split
    · exact .refl _
    · split
      · exact (answerPort_quiet _ _ _ _ _).orderly
      · exact (answerPort_quiet _ _ _ _ _).orderly
      · split
        · exact commitAnswer_orderly _ _ _
        · exact .refl _

/-! ## Time -/

theorem modTimer_orderly (t : Fin 4) (f : Timer → Timer) (s : State) : Orderly s (s.modTimer t f) :=
  Quiet.orderly ⟨rfl, rfl⟩

theorem countEvent_orderly (t : Fin 4) (s : State) : Orderly s (countEvent t s) := by
  have steps := modTimer_orderly t Timer.step s
  unfold countEvent
  split
  · split
    · exact steps.trans (boundary_orderly t _)
    · exact steps
  · exact .refl s

theorem tickTimer_orderly (t : Fin 4) (s : State) : Orderly s (tickTimer t s) := by
  unfold tickTimer
  split
  · split
    · exact .refl s
    · split
      · exact (modTimer_orderly t _ s).trans (countEvent_orderly t _)
      · exact modTimer_orderly t _ s
  · exact .refl s

theorem tickSink_orderly (s : State) (k : TickSink) : Orderly s (tickSink s k) := by
  cases k with
  | timer t => exact tickTimer_orderly t s
  | hold => exact (tickHold_quiet s).orderly
  | line g => exact Quiet.orderly ⟨rfl, rfl⟩

theorem serviceTick_orderly (order : List TickSink) (s : State) : Orderly s (serviceTick order s) := by
  unfold serviceTick
  split
  · exact .refl s
  · exact Orderly.trans (t := { s with tick := { s.tick with inForce := s.tick.divisor, count := 0 } })
      (Quiet.orderly ⟨rfl, rfl⟩) (.foldl tickSink_orderly _ _)

theorem refclkEdge_orderly (s : State) : Orderly s (refclkEdge s) := by
  unfold refclkEdge
  split
  · exact .refl s
  · split
    · exact Quiet.orderly ⟨rfl, rfl⟩
    · exact Orderly.trans (t := { s with freeIndex := s.freeIndex + 1 }) (Quiet.orderly ⟨rfl, rfl⟩)
        (serviceTick_orderly _ _)

theorem execTimerStep_orderly {i : Fin 4} {s t : State} (h : execTimerStep i s = .next t) : Orderly s t := by
  unfold execTimerStep at h
  cases h
  split
  · exact (modTimer_orderly i _ s).trans (countEvent_orderly i _)
  · exact .refl s

theorem syncActs_orderly (t : Fin 4) (level : Bool) (s : State) : Orderly s (syncActs t level s) := by
  have counts : Orderly s (if countsSync (s.timer t) level then countEvent t s else s) := by
    split
    · exact countEvent_orderly t s
    · exact .refl s
  unfold syncActs
  dsimp only
  split
  · exact counts.trans (boundary_orderly t _)
  · exact counts

theorem syncSettles_orderly (t : Fin 4) (level : Bool) (s : State) : Orderly s (syncSettles t level s) := by
  unfold syncSettles
  split
  · exact Quiet.orderly ⟨rfl, rfl⟩
  · split
    · exact Quiet.orderly ⟨rfl, rfl⟩
    · exact Orderly.trans (t := { s with syncLine := s.syncLine.set t level, syncRef := s.syncRef.set t level })
        (Quiet.orderly ⟨rfl, rfl⟩) (syncActs_orderly t level _)

/-- CHOLD that is asserted holds every start back, and its release makes the one that waits (R63, R64). -/
theorem choldSet_orderly (asserted : Bool) (s : State) : Orderly s (choldSet asserted s) := by
  unfold choldSet
  split
  · exact testStart_orderly rfl
  next h =>
    refine ⟨rfl, .of_loads rfl, fun hs he ha => hs he ?_⟩
    obtain rfl : asserted = false := ha
    simpa using h

/-! ## Requests -/

theorem ite_orderly {c : Prop} [Decidable c] {s : State} {x y : Taken} (hx : Orderly s x.state)
    (hy : Orderly s y.state) : Orderly s (if c then x else y).state := by
  split
  · exact hx
  · exact hy

theorem readEffect_orderly (o : Obj) (s : State) : Orderly s (readEffect o s) := by
  unfold readEffect
  split
  · exact Quiet.orderly ⟨rfl, rfl⟩
  · exact .refl s

theorem putWindow_orderly (n : Fin 8) (v : WindowRaw) (s : State) : Orderly s (putWindow n v s).state := by
  unfold putWindow
  split
  · exact .refl s
  · exact ite_orderly (.refl s) (ite_orderly (.refl s) (Quiet.orderly ⟨rfl, rfl⟩))

theorem putGroupCfg_orderly (g : Fin 4) (v : GroupCfgRaw) (s : State) : Orderly s (putGroupCfg g v s).state := by
  unfold putGroupCfg
  split
  · exact .refl s
  · exact ite_orderly (.refl s) (ite_orderly (.refl s) (Quiet.orderly ⟨rfl, rfl⟩))

theorem putTimerCfg_orderly (t : Fin 4) (v : TimerCfgRaw) (s : State) : Orderly s (putTimerCfg t v s).state := by
  unfold putTimerCfg
  split
  · exact .refl s
  · exact ite_orderly (.refl s) (ite_orderly (.refl s) (ite_orderly (modTimer_orderly t _ s) (modTimer_orderly t _ s)))

theorem putMonCfg_orderly (m : Fin 4) (v : MonCfgRaw) (s : State) : Orderly s (putMonCfg m v s).state := by
  unfold putMonCfg
  split
  · exact .refl s
  · exact Quiet.orderly ⟨rfl, rfl⟩

theorem putCmtCfg_orderly (g : Fin 4) (v : CmtCfgRaw) (s : State) : Orderly s (putCmtCfg g v s).state := by
  unfold putCmtCfg
  split
  · exact ite_orderly (.refl s) (Quiet.orderly ⟨rfl, rfl⟩)
  · exact .refl s

theorem timerStartAction_orderly (t : Fin 4) (s : State) : Orderly s (timerStartAction t s).state :=
  ite_orderly (.refl s) (modTimer_orderly t _ s)

theorem timerStopAction_orderly (t : Fin 4) (s : State) : Orderly s (timerStopAction t s).state :=
  ite_orderly (modTimer_orderly t _ s) (.refl s)

theorem setCmtAction_orderly (arg : Byte) (s : State) : Orderly s (setCmtAction arg s).state := by
  unfold setCmtAction
  split
  · exact .refl s
  · exact Quiet.orderly ⟨rfl, rfl⟩

theorem enableAction_orderly (g : Fin 4) (s : State) : Orderly s (enableAction g s).state := by
  have enables : Quiet s (reexamineConsumer g (reexamineHost g (s.modGroup g GroupRec.enabled))) :=
    (Quiet.trans (t := s.modGroup g GroupRec.enabled) ⟨rfl, rfl⟩ (reexamineHost_quiet g _)).trans
      (reexamineConsumer_quiet g _)
  exact ite_orderly (.refl s) (ite_orderly (.refl s) enables.orderly)

theorem disableAction_orderly (g : Fin 4) (s : State) : Orderly s (disableAction g s).state := by
  unfold disableAction
  split
  · exact disableGroup_orderly g s
  · exact disableGroup_orderly g s
  all_goals exact .refl s

theorem sealAction_orderly (g : Fin 4) (s : State) : Orderly s (sealAction g s).state := by
  have seals : Orderly s (if (s.group g).hasSealed then refuse .busy s else done (sealGroup g s)).state :=
    ite_orderly (.refl s) (sealGroup_orderly g s)
  unfold sealAction
  split
  · exact .refl s
  · exact .refl s
  · exact seals
  · exact seals

theorem discardAction_orderly (g : Fin 4) (s : State) : Orderly s (discardAction g s).state := by
  have discards : Quiet s (retryAdmission (discardOpen g s)) :=
    Quiet.trans (t := discardOpen g s) ⟨rfl, rfl⟩ (retryAdmission_quiet _)
  unfold discardAction
  split
  · exact .refl s
  · exact .refl s
  · exact discards.orderly
  · exact discards.orderly

theorem bypassAction_orderly (arg : Byte) (s : State) : Orderly s (bypassAction arg s).state :=
  ite_orderly (.refl s) <| ite_orderly (.refl s) <| ite_orderly (Quiet.orderly ⟨rfl, rfl⟩) <|
    Orderly.trans (t := { s with mode := .leaving }) (Quiet.orderly ⟨rfl, rfl⟩) (.foldl windDown_orderly _ _)

/-- SOFT_RESET keeps every record, as an orphan that the *commit write count* still counts, and no group waits (R138,
R183). -/
theorem softReset_orderly (s : State) : Orderly s (softReset s) := by
  refine ⟨rfl, fun ⟨⟨hissue, hhp, hcp⟩, hagree, hle⟩ => ⟨⟨?_, ?_, ?_⟩, ?_, hle⟩, fun _ _ _ => rfl⟩
  · simpa [softReset] using hissue
  · simpa [softReset] using hhp
  · simpa [softReset] using hcp
  · have hrequester : ((fun r : IssueRec => r.requester == .ce) ∘ IssueRec.orphaned) = fun r => r.requester == .ce := rfl
    simpa [softReset, List.filter_map, hrequester] using hagree

theorem withIndex_orderly {f : Fin 4 → State → Taken} (hf : ∀ g s, Orderly s (f g s).state) (arg : Byte) (s : State) :
    Orderly s (withIndex arg f s).state := by
  unfold withIndex
  split
  · exact .refl s
  · exact hf _ s

/-- Every request is orderly once its CRC byte is found correct (R167). -/
theorem requestOp_orderly (c : Instr) (s : State) : Orderly s (requestOp c s).state := by
  cases c with
  | get o crc => exact readEffect_orderly o s
  | getCapture m crc => exact readEffect_orderly (.capture m) s
  | putDevice v crc => exact ite_orderly (.refl s) (Quiet.orderly ⟨rfl, rfl⟩)
  | putWindow n v crc => exact putWindow_orderly n v s
  | putGroupCfg g v crc => exact putGroupCfg_orderly g v s
  | putTimerCfg t v crc => exact putTimerCfg_orderly t v s
  | putMonCfg m v crc => exact putMonCfg_orderly m v s
  | putCmtCfg g v crc => exact putCmtCfg_orderly g v s
  | activate arg crc => exact ite_orderly (.refl s) (ite_orderly (.refl s) (Quiet.orderly ⟨rfl, rfl⟩))
  | bypass arg crc => exact bypassAction_orderly arg s
  | softReset arg crc => exact ite_orderly (.refl s) (softReset_orderly s)
  | enableGroup arg crc => exact withIndex_orderly enableAction_orderly arg s
  | disableGroup arg crc => exact withIndex_orderly disableAction_orderly arg s
  | sealGroup arg crc => exact withIndex_orderly sealAction_orderly arg s
  | discard arg crc => exact withIndex_orderly discardAction_orderly arg s
  | clearFault arg crc => exact withIndex_orderly (fun _ _ => Quiet.orderly ⟨rfl, rfl⟩) arg s
  | timerStart arg crc => exact withIndex_orderly timerStartAction_orderly arg s
  | timerStop arg crc => exact withIndex_orderly timerStopAction_orderly arg s
  | timerPreset arg crc => exact withIndex_orderly (fun t s => modTimer_orderly t _ s) arg s
  | setCmt arg crc => exact setCmtAction_orderly arg s
  | _ => exact Quiet.orderly ⟨rfl, rfl⟩

theorem takeRequest_orderly (c : Instr) (body : List Byte) (crc : Byte) (s : State) :
    Orderly s (takeRequest body crc (requestOp c) s) := by
  unfold takeRequest
  split
  · exact (requestOp_orderly c s).trans (Quiet.orderly ⟨rfl, rfl⟩)
  · exact Quiet.orderly ⟨rfl, rfl⟩

/-- A byte clocked in is orderly, also when it completes a request (R164, R165). -/
theorem clockByte_orderly (b : Byte) (s : State) : Orderly s (clockByte b s) := by
  have take : ∀ bytes, Orderly s (takeBytes bytes s) := by
    intro bytes
    unfold takeBytes
    split
    next c _ => exact takeRequest_orderly c _ _ s
    next => exact .refl s
  unfold clockByte
  split
  · exact .refl s
  · exact .refl s
  · unfold receiveRequestByte
    split
    · exact take _
    · exact Quiet.orderly ⟨rfl, rfl⟩
  · exact Quiet.orderly ⟨rfl, rfl⟩
  · exact Quiet.orderly ⟨rfl, rfl⟩

theorem startFrame_orderly (s : State) : Orderly s (startFrame s) := by
  unfold startFrame
  split
  · split <;> exact Quiet.orderly ⟨rfl, rfl⟩
  all_goals exact .refl s

theorem endFrame_orderly (s : State) : Orderly s (endFrame s) := by
  unfold endFrame
  split
  case h_5 => exact .refl s
  all_goals exact Quiet.orderly ⟨rfl, rfl⟩

theorem exec_request_orderly {c : Instr} {body : List Byte} {s t : State} (hb : c.requestBody = some body)
    (h : exec c s = .next t) : Orderly s t := by
  rcases exec_request hb s with he | he <;> rw [he] at h <;> cases h
  · exact .refl s
  · unfold requestArrives
    split
    · exact takeRequest_orderly c body _ s
    · exact .refl s

/-! ## Every command -/

/-- Every command but the three that move RSTn is orderly. -/
theorem exec_orderly {c : Instr} {s t : State} (hpower : c ≠ .powerOn) (hassert : c ≠ .rstnAssert)
    (hrelease : c ≠ .rstnRelease) (h : exec c s = .next t) : Orderly s t := by
  cases c with
  | powerOn => exact absurd rfl hpower
  | rstnAssert => exact absurd rfl hassert
  | rstnRelease => exact absurd rfl hrelease
  | requestAccept p r => cases h; exact arrive_orderly p r s
  | headProcessing p => cases h; exact (processHead_quiet p s).orderly
  | memoryGrant => cases h; exact grant_orderly s
  | memoryAnswer a data => cases h; exact takeAnswer_orderly a data s
  | drainStart => cases h; exact testStart_orderly rfl
  | responseDelivery p => cases h; exact deliver_orderly p s
  | holdTimerExpiry => cases h; exact (expireHold_quiet s).orderly
  | serviceTick order => cases h; exact serviceTick_orderly order s
  | timerStep i => exact execTimerStep_orderly h
  | pulseEnd g => cases h; exact Quiet.orderly ⟨rfl, rfl⟩
  | syncTransition i level => cases h; exact syncSettles_orderly i level s
  | choldChange asserted => cases h; exact choldSet_orderly asserted s
  | frameStart => cases h; exact startFrame_orderly s
  | frameEnd => cases h; exact endFrame_orderly s
  | requestByteReceived b => cases h; exact clockByte_orderly b s
  | _ => exact exec_request_orderly rfl h

/-- Everything a command can do to RSTn and to the limits: it asserts RSTn, releases it, or is orderly. -/
theorem exec_moves_rstn {c : Instr} {s t : State} (h : exec c s = .next t) :
    t = hardReset s ∨ t = releaseReset s ∨ (c ≠ .rstnRelease ∧ Orderly s t) := by
  by_cases hpower : c = .powerOn
  · subst hpower; cases h; exact .inl rfl
  by_cases hassert : c = .rstnAssert
  · subst hassert; cases h; exact .inl rfl
  by_cases hrelease : c = .rstnRelease
  · subst hrelease; cases h; exact .inr (.inl rfl)
  exact .inr (.inr ⟨hrelease, exec_orderly hpower hassert hrelease h⟩)

/-- A release of RSTn keeps the limits: each port takes what it has room for (R123). -/
theorem releaseReset_limits {s : State} (h : Limits s) : Limits (releaseReset s) := by
  unfold releaseReset
  split
  · obtain ⟨⟨hissue, hhp, hcp⟩, hcount⟩ := h
    exact ⟨⟨hissue, acceptOffered_length_le _ hhp, acceptOffered_length_le _ hcp⟩, hcount⟩
  · exact h

theorem hardReset_limits (s : State) : Limits (hardReset s) := by
  obtain ⟨⟨hissue, -, -⟩, hcount⟩ := reset_limits
  exact ⟨⟨hissue, Nat.zero_le _, Nat.zero_le _⟩, hcount⟩

/-- Every command keeps the limits. -/
theorem exec_limits {c : Instr} {s t : State} (hs : Limits s) (h : exec c s = .next t) : Limits t := by
  rcases exec_moves_rstn h with rfl | rfl | ⟨-, horderly⟩
  · exact hardReset_limits s
  · exact releaseReset_limits hs
  · exact horderly.limits hs

/-- What every command keeps that reads nothing of the queue of commands, and every edge of REFCLK, every step keeps. -/
theorem step_of_exec {P : State → Prop} (hqueue : ∀ s l, P s → P { s with pending := l })
    (hedge : ∀ s, P s → P (refclkEdge s)) (hexec : ∀ {c s t}, P s → exec c s = .next t → P t) {s t : State} (hs : P s)
    (h : step s = .next t) : P t := by
  unfold step at h
  split at h
  next => cases h; exact hedge s hs
  next c rest _ => exact hexec (hqueue s rest hs) h

/-- Settles O52: every step is orderly or moves RSTn, and keeps the limits either way. -/
theorem stepsKeepTheLimits : Obligations.StepsKeepTheLimits := fun _ _ hs h =>
  step_of_exec (P := Limits) (fun _ _ => id) (fun s => (refclkEdge_orderly s).limits) exec_limits hs h

end Sys2Proof.Machine

namespace Sys2Proof.Machine

/-! ## What RSTn holds (R139, R170, R182) -/

/-- What RSTn holds: no request, no entry and no record, no group enabled, no timer running, and no frame taken. -/
structure Resting (s : State) : Prop where
  hp : s.hp.slots = []
  cp : s.cp.slots = []
  issue : s.issue = []
  queue : s.queue = []
  requests : s.commitReq = []
  mode : s.mode = .bypass
  engine : s.engine.state = .idle
  groups : ∀ g : Fin 4, (s.group g).state = .disabled
  timers : ∀ t : Fin 4, (s.timer t).running = false
  phase : s.mgmt.phase = .idle ∨ s.mgmt.phase = .ignored

theorem heldInReset_iff (s : State) : HeldInReset s ↔ (s.inReset = true → Resting s) :=
  forall_congr' fun _ => ⟨fun ⟨h1, h2, h3, h4, h5, h6, h7, h8, h9, h10⟩ => ⟨h1, h2, h3, h4, h5, h6, h7, h8, h9, h10⟩,
    fun ⟨h1, h2, h3, h4, h5, h6, h7, h8, h9, h10⟩ => ⟨h1, h2, h3, h4, h5, h6, h7, h8, h9, h10⟩⟩

theorem Resting.port {s : State} (h : Resting s) (p : PortId) : (s.port p).slots = [] := by
  cases p
  · exact h.hp
  · exact h.cp

theorem Resting.no_head {s : State} (h : Resting s) (p : PortId) : (s.port p).head? = none := by
  simp [Port.head?, h.port p]

theorem Resting.no_hold {s : State} (h : Resting s) : s.held = none := by
  have hhead : s.hp.head? = none := h.no_head .hp
  simp [State.held, hhead]

theorem Resting.no_frame {s : State} (h : Resting s) : s.mgmt.phase ≠ .request := by
  rcases h.phase with hp | hp <;> simp [hp]

theorem hardReset_resting (s : State) : Resting (hardReset s) where
  hp := rfl
  cp := rfl
  issue := rfl
  queue := rfl
  requests := rfl
  mode := rfl
  engine := rfl
  groups g := congrArg GroupRec.state (reset_group g)
  timers t := congrArg Timer.running (reset_timer t)
  phase := by
    have hphase : (hardReset s).mgmt = s.mgmt.hardReset := rfl
    rw [hphase, Mgmt.hardReset_eq]
    split <;> simp

/-- A request that arrives waits outside (R139). -/
theorem Resting.arrives {s : State} (h : Resting s) (hr : s.inReset = true) (p : PortId) (r : Request) :
    Resting (arrive p r s) := by
  have hwaits : arrive p r s = s.setPort p { s.port p with offered := (s.port p).offered ++ [r] } := if_pos hr
  rw [hwaits]
  cases p <;> exact { h with }

/-- With no group waiting CHOLD starts nothing, and only its level moves (R63, R64). -/
theorem Resting.choldSets {s : State} (h : Resting s) (asserted : Bool) : Resting (choldSet asserted s) := by
  have moved : Resting { s with chold := asserted } := { h with }
  unfold choldSet
  split
  · rw [testStart_none (.inr (.inl moved.requests))]
    exact moved
  · exact moved

/-- MCSn that falls begins a low period that is ignored (R170). -/
theorem Resting.startsFrame {s : State} (h : Resting s) (hr : s.inReset = true) : Resting (startFrame s) := by
  unfold startFrame
  split
  · rw [if_pos hr]
    exact { h with phase := .inr rfl }
  all_goals exact h

theorem Resting.endsFrame {s : State} (h : Resting s) : Resting (endFrame s) := by
  unfold endFrame
  split
  next hphase => exact absurd hphase h.no_frame
  case h_5 => exact h
  all_goals exact { h with phase := .inl rfl }

/-- No byte is taken (R163, R170). -/
theorem Resting.clockByte_eq {s : State} (h : Resting s) (b : Byte) : clockByte b s = s := by
  unfold clockByte
  rcases h.phase with hphase | hphase <;> rw [hphase]

/-- No request is taken (R164, R170). -/
theorem Resting.exec_request_eq {s : State} (h : Resting s) {c : Instr} {body : List Byte}
    (hb : c.requestBody = some body) : exec c s = .next s := by
  rcases exec_request hb s with he | he
  · exact he
  · rw [he, requestArrives, if_neg fun hready => h.no_frame hready.1]

/-- While RSTn is asserted every command but its release leaves the part at rest. -/
theorem exec_resting {c : Instr} {s t : State} (h : Resting s) (hr : s.inReset = true) (hrelease : c ≠ .rstnRelease)
    (hexec : exec c s = .next t) : Resting t := by
  have stays : exec c s = .next s → Resting t := fun hs => by cases hs.symm.trans hexec; exact h
  cases c with
  | powerOn => cases hexec; exact hardReset_resting s
  | rstnAssert => cases hexec; exact hardReset_resting s
  | rstnRelease => exact absurd rfl hrelease
  | requestAccept p r => cases hexec; exact h.arrives hr p r
  | headProcessing p => exact stays (by simp [exec, execHeadProcessing, processHead, h.no_head p])
  | memoryGrant => exact stays (by simp [exec, execMemoryGrant, grant, chosen, hr])
  | memoryAnswer a data => exact stays (by simp [exec, execMemoryAnswer, takeAnswer, h.issue])
  | drainStart => exact stays (exec_drainStart (.rests (.inr (.inl h.requests))))
  | responseDelivery p => exact stays (by simp [exec, execResponseDelivery, deliver, h.port p])
  | holdTimerExpiry => exact stays (by simp [exec, execHoldTimerExpiry, expireHold, h.no_hold])
  | serviceTick order => exact stays (congrArg Host.Outcome.next (if_pos hr))
  | timerStep i => exact stays (exec_timerStep_stopped (h.timers i))
  | pulseEnd g => cases hexec; exact { h with }
  | syncTransition i level =>
    have hlevel : syncSettles i level s = { s with syncLine := s.syncLine.set i level } := if_pos hr
    cases hexec
    rw [hlevel]
    exact { h with }
  | choldChange asserted => cases hexec; exact h.choldSets asserted
  | frameStart => cases hexec; exact h.startsFrame hr
  | frameEnd => cases hexec; exact h.endsFrame
  | requestByteReceived b => exact stays (congrArg Host.Outcome.next (h.clockByte_eq b))
  | _ => exact stays (h.exec_request_eq rfl)

/-! ## No start is left undone, and RSTn holds the part -/

/-- What every step keeps of the start test and of RSTn (R63, R139). -/
def StartsAndRests (s : State) : Prop := NoStartLeft s ∧ HeldInReset s

/-- An orderly step takes the part into no reset. -/
theorem Orderly.startsAndRests {s t : State} (h : Orderly s t) (hrests : s.inReset = true → Resting s → Resting t)
    (hs : StartsAndRests s) : StartsAndRests t := by
  obtain ⟨hstart, hheld⟩ := hs
  refine ⟨h.starts hstart, (heldInReset_iff t).mpr fun hr => ?_⟩
  rw [h.inReset] at hr
  exact hrests hr ((heldInReset_iff s).mp hheld hr)

theorem hardReset_startsAndRests (s : State) : StartsAndRests (hardReset s) :=
  ⟨fun _ _ => rfl, (heldInReset_iff _).mpr fun _ => hardReset_resting s⟩

/-- Once RSTn is released it holds nothing. -/
theorem releaseReset_startsAndRests {s : State} (hs : StartsAndRests s) : StartsAndRests (releaseReset s) := by
  unfold releaseReset
  split
  · exact ⟨hs.1, fun hr => by cases hr⟩
  · exact hs

theorem exec_startsAndRests {c : Instr} {s t : State} (hs : StartsAndRests s) (h : exec c s = .next t) :
    StartsAndRests t := by
  rcases exec_moves_rstn h with rfl | rfl | ⟨hrelease, horderly⟩
  · exact hardReset_startsAndRests s
  · exact releaseReset_startsAndRests hs
  · exact horderly.startsAndRests (fun hr hrest => exec_resting hrest hr hrelease h) hs

/-- While RSTn is asserted an edge of REFCLK changes nothing (R139). -/
theorem refclkEdge_startsAndRests (s : State) (hs : StartsAndRests s) : StartsAndRests (refclkEdge s) :=
  (refclkEdge_orderly s).startsAndRests (fun hr hrest => by
    have hstill : refclkEdge s = s := if_pos hr
    rwa [hstill]) hs

/-- Settles O60: an orderly step leaves no start undone and a part at rest stays at rest, and what moves RSTn resets the
part or releases it. -/
theorem stepsLeaveNoStartAndStayInReset : Obligations.StepsLeaveNoStartAndStayInReset := fun _ _ hs h =>
  step_of_exec (P := StartsAndRests) (fun _ _ => id) refclkEdge_startsAndRests exec_startsAndRests hs h

end Sys2Proof.Machine

namespace Sys2Proof.Machine

/-! ## What the fence reads (R94)

Only a grant, an answer, a reset and a PUT of a window change the issue list or the window table. -/

/-- What the order of the fence reads of a state: the issue list and the window table. -/
abbrev State.fenceView (s : State) : List IssueRec × Eight Window := (s.issue, s.windows)

theorem foldl_view {α : Type} {f : State → α → State} (hf : ∀ s a, (f s a).fenceView = s.fenceView) (l : List α)
    (s : State) : (l.foldl f s).fenceView = s.fenceView := by
  induction l generalizing s with
  | nil => rfl
  | cons a l ih => exact (ih _).trans (hf s a)

/-! ### Ports and admission -/

theorem setHead_view (p : PortId) (ph : SlotPhase) (s : State) : (s.setHead p ph).fenceView = s.fenceView := by
  cases p <;> rfl

theorem setPort_view (p : PortId) (x : Port) (s : State) : (s.setPort p x).fenceView = s.fenceView := by
  cases p <;> rfl

theorem observe_view (stream : Requester) (k : Kind) (words : List Addr) (s : State) :
    (observe stream k words s).fenceView = s.fenceView :=
  observe_frame State.fenceView (fun _ _ _ => rfl) stream k words s

theorem offerAdmission_view (cls : ReqClass) (g : Fin 4) (policy : FullPolicy) (r : Request) (s : State) :
    (offerAdmission cls g policy r s).fenceView = s.fenceView := by
  unfold offerAdmission
  split <;> rfl

theorem retryAdmission_view (s : State) : (retryAdmission s).fenceView = s.fenceView := by
  unfold retryAdmission
  repeat' split
  all_goals rfl

theorem expireHold_view (s : State) : (expireHold s).fenceView = s.fenceView := by
  unfold expireHold
  repeat' split
  all_goals rfl

theorem tickHold_view (s : State) : (tickHold s).fenceView = s.fenceView := by
  unfold tickHold
  repeat' split
  case isTrue => exact expireHold_view s
  all_goals rfl
theorem handleHost_view (cls : ReqClass) (r : Request) (s : State) : (handleHost cls r s).fenceView = s.fenceView := by
  unfold handleHost
  repeat' split
  any_goals exact offerAdmission_view _ _ _ _ s
  all_goals rfl

theorem handleConsumer_view (cls : ReqClass) (r : Request) (s : State) :
    (handleConsumer cls r s).fenceView = s.fenceView := by
  unfold handleConsumer
  repeat' split
  all_goals rfl

theorem processHead_view (p : PortId) (s : State) : (processHead p s).fenceView = s.fenceView := by
  have examined : ∀ r t, (examine p r t).fenceView = t.fenceView := by
    intro r t
    unfold examine
    split
    · exact setHead_view p _ t
    · cases p
      · exact handleHost_view _ r t
      · exact handleConsumer_view _ r t
  unfold processHead
  repeat' split
  any_goals rfl
  exact (examined _ _).trans (observe_view _ _ _ s)

theorem reexamineHost_view (g : Fin 4) (s : State) : (reexamineHost g s).fenceView = s.fenceView := by
  unfold reexamineHost
  repeat' split
  any_goals exact offerAdmission_view _ _ _ _ s
  all_goals rfl

theorem reexamineConsumer_view (g : Fin 4) (s : State) : (reexamineConsumer g s).fenceView = s.fenceView := by
  rcases reexamineConsumer_cases g s with ⟨h, -⟩ | ⟨_, _, -, h⟩ <;> rw [h]
  rfl

theorem deliver_view (p : PortId) (s : State) : (deliver p s).fenceView = s.fenceView := by
  unfold deliver causeOf
  repeat' split
  any_goals exact setPort_view _ _ s
  all_goals rfl

theorem arrive_view (p : PortId) (r : Request) (s : State) : (arrive p r s).fenceView = s.fenceView := by
  unfold arrive
  split <;> exact setPort_view _ _ s

/-! ### Seals, completions and starts -/

theorem releaseHeld_view (g : Fin 4) (s : State) : (releaseHeld g s).fenceView = s.fenceView := by
  obtain ⟨p, h⟩ := releaseHeld_eq g s
  rw [h]

theorem convertHold_view (g : Fin 4) (s : State) : (convertHold g s).fenceView = s.fenceView := by
  obtain ⟨p, h⟩ := convertHold_eq g s
  rw [h]

theorem reachDisabled_view (g : Fin 4) (s : State) : (reachDisabled g s).fenceView = s.fenceView := by
  obtain ⟨p, m, e, h⟩ := reachDisabled_eq g s
  rw [h]

theorem finishDrain_view (g : Fin 4) (s : State) : (finishDrain g s).fenceView = s.fenceView := by
  unfold finishDrain completeStopping
  repeat' split
  any_goals exact reachDisabled_view g (completeCore g s)
  all_goals rfl

theorem testStart_view (s : State) : (testStart s).fenceView = s.fenceView := by
  obtain ⟨u, h⟩ := startTest_total s
  rw [testStart_of h]
  induction h with
  | rests => rfl
  | starts => rfl
  | completes _ _ _ _ _ _ ih =>
    rw [ih, ← finishDrain_eq, finishDrain_view]
    rfl

theorem sealGroup_view (g : Fin 4) (s : State) : (sealGroup g s).fenceView = s.fenceView :=
  testStart_view (sealCore g s)

theorem testCompletion_view (s : State) : (testCompletion s).fenceView = s.fenceView := by
  unfold testCompletion
  repeat' split
  any_goals rfl
  exact (testStart_view _).trans (finishDrain_view _ s)

theorem boundary_view (g : Fin 4) (s : State) : (boundary g s).fenceView = s.fenceView := by
  unfold boundary
  repeat' split
  any_goals exact sealGroup_view g s
  all_goals rfl

theorem disableGroup_view (g : Fin 4) (s : State) : (disableGroup g s).fenceView = s.fenceView := by
  have stopped : (convertHold g (s.inState g .stopping)).fenceView = s.fenceView := convertHold_view g _
  unfold disableGroup
  dsimp only
  repeat' split
  · exact reachDisabled_view g s
  · exact (sealGroup_view g _).trans stopped
  · exact stopped

theorem windDown_view (s : State) (g : Fin 4) : (windDown s g).fenceView = s.fenceView := by
  unfold windDown
  split
  any_goals exact disableGroup_view g s
  all_goals rfl

theorem answerPort_view (p : PortId) (r : IssueRec) (ans : AnswerStatus) (data : List Word) (s : State) :
    (answerPort p r ans data s).fenceView = s.fenceView := by
  unfold answerPort
  split
  · rfl
  · exact setPort_view p _ s

theorem commitAnswer_view (x : EntryRef) (ans : AnswerStatus) (s : State) :
    (commitAnswer x ans s).fenceView = s.fenceView := by
  have settled : ∀ t, (testCompletion (retryAdmission t)).fenceView = t.fenceView := fun t =>
    (testCompletion_view _).trans (retryAdmission_view t)
  unfold commitAnswer
  repeat' split
  any_goals exact settled _
  all_goals rfl

/-- The answer of a record leaves what the fence reads: its record has left the list before (R132). -/
theorem routeAnswer_view (r : IssueRec) (ans : AnswerStatus) (data : List Word) (s : State) :
    (routeAnswer r ans data s).fenceView = s.fenceView := by
  unfold routeAnswer
  repeat' split
  any_goals exact answerPort_view _ r ans data s
  any_goals exact commitAnswer_view _ ans s
  all_goals rfl

/-! ### Time -/

theorem countEvent_view (t : Fin 4) (s : State) : (countEvent t s).fenceView = s.fenceView := by
  unfold countEvent
  repeat' split
  any_goals exact boundary_view t (s.modTimer t Timer.step)
  all_goals rfl

theorem tickTimer_view (t : Fin 4) (s : State) : (tickTimer t s).fenceView = s.fenceView := by
  unfold tickTimer
  repeat' split
  any_goals exact countEvent_view t (s.modTimer t _)
  all_goals rfl

theorem tickSink_view (s : State) (k : TickSink) : (tickSink s k).fenceView = s.fenceView := by
  cases k with
  | timer t => exact tickTimer_view t s
  | hold => exact tickHold_view s
  | line g => rfl

theorem serviceTick_view (order : List TickSink) (s : State) : (serviceTick order s).fenceView = s.fenceView := by
  unfold serviceTick
  split
  · rfl
  · exact foldl_view tickSink_view _ _

theorem refclkEdge_view (s : State) : (refclkEdge s).fenceView = s.fenceView := by
  unfold refclkEdge
  repeat' split
  any_goals exact serviceTick_view _ { s with freeIndex := s.freeIndex + 1 }
  all_goals rfl

theorem execTimerStep_view {i : Fin 4} {s t : State} (h : execTimerStep i s = .next t) :
    t.fenceView = s.fenceView := by
  unfold execTimerStep at h
  cases h
  split
  · exact countEvent_view i (s.modTimer i _)
  · rfl

theorem syncSettles_view (t : Fin 4) (level : Bool) (s : State) :
    (syncSettles t level s).fenceView = s.fenceView := by
  have acts : ∀ u, (syncActs t level u).fenceView = u.fenceView := by
    intro u
    have counted : (if countsSync (u.timer t) level then countEvent t u else u).fenceView = u.fenceView := by
      split
      · exact countEvent_view t u
      · rfl
    unfold syncActs
    dsimp only
    split
    · exact (boundary_view t _).trans counted
    · exact counted
  unfold syncSettles
  repeat' split
  any_goals exact acts { s with syncLine := s.syncLine.set t level, syncRef := s.syncRef.set t level }
  all_goals rfl

theorem choldSet_view (asserted : Bool) (s : State) : (choldSet asserted s).fenceView = s.fenceView := by
  unfold choldSet
  split
  · exact testStart_view { s with chold := asserted }
  · rfl

theorem releaseReset_view (s : State) : (releaseReset s).fenceView = s.fenceView := by
  unfold releaseReset
  split <;> rfl

/-! ### Requests -/

theorem ite_view {c : Prop} [Decidable c] {s : State} {x y : Taken} (hx : x.state.fenceView = s.fenceView)
    (hy : y.state.fenceView = s.fenceView) : (if c then x else y).state.fenceView = s.fenceView := by
  split
  · exact hx
  · exact hy

theorem putGroupCfg_view (g : Fin 4) (v : GroupCfgRaw) (s : State) :
    (putGroupCfg g v s).state.fenceView = s.fenceView := by
  unfold putGroupCfg
  split
  · rfl
  · exact ite_view rfl (ite_view rfl rfl)

theorem putTimerCfg_view (t : Fin 4) (v : TimerCfgRaw) (s : State) :
    (putTimerCfg t v s).state.fenceView = s.fenceView := by
  unfold putTimerCfg
  split
  · rfl
  · exact ite_view rfl (ite_view rfl (ite_view rfl rfl))

theorem putMonCfg_view (m : Fin 4) (v : MonCfgRaw) (s : State) :
    (putMonCfg m v s).state.fenceView = s.fenceView := by
  unfold putMonCfg
  split <;> rfl

theorem putCmtCfg_view (g : Fin 4) (v : CmtCfgRaw) (s : State) :
    (putCmtCfg g v s).state.fenceView = s.fenceView := by
  unfold putCmtCfg
  split
  · exact ite_view rfl rfl
  · rfl

theorem readEffect_view (o : Obj) (s : State) : (readEffect o s).fenceView = s.fenceView := by
  unfold readEffect
  split <;> rfl

theorem setCmtAction_view (arg : Byte) (s : State) : (setCmtAction arg s).state.fenceView = s.fenceView := by
  unfold setCmtAction
  split <;> rfl

theorem timerStartAction_view (t : Fin 4) (s : State) : (timerStartAction t s).state.fenceView = s.fenceView :=
  ite_view rfl rfl

theorem timerStopAction_view (t : Fin 4) (s : State) : (timerStopAction t s).state.fenceView = s.fenceView :=
  ite_view rfl rfl

theorem bypassAction_view (arg : Byte) (s : State) : (bypassAction arg s).state.fenceView = s.fenceView :=
  ite_view rfl (ite_view rfl (ite_view rfl (foldl_view windDown_view four { s with mode := .leaving })))

theorem enableAction_view (g : Fin 4) (s : State) : (enableAction g s).state.fenceView = s.fenceView :=
  ite_view rfl (ite_view rfl ((reexamineConsumer_view g _).trans (reexamineHost_view g (s.modGroup g GroupRec.enabled))))

theorem disableAction_view (g : Fin 4) (s : State) : (disableAction g s).state.fenceView = s.fenceView := by
  unfold disableAction
  split
  any_goals exact disableGroup_view g s
  all_goals rfl

theorem sealAction_view (g : Fin 4) (s : State) : (sealAction g s).state.fenceView = s.fenceView := by
  unfold sealAction
  split
  any_goals exact ite_view rfl (sealGroup_view g s)
  all_goals rfl

theorem discardAction_view (g : Fin 4) (s : State) : (discardAction g s).state.fenceView = s.fenceView := by
  unfold discardAction
  split
  any_goals exact retryAdmission_view (discardOpen g s)
  all_goals rfl

theorem withIndex_view {f : Fin 4 → State → Taken} (hf : ∀ g s, (f g s).state.fenceView = s.fenceView) (arg : Byte)
    (s : State) : (withIndex arg f s).state.fenceView = s.fenceView := by
  unfold withIndex
  split
  · rfl
  · exact hf _ s

/-- A request that neither replaces a window nor resets the part leaves what the fence reads. -/
theorem requestOp_view {c : Instr} (hput : ∀ n v crc, c ≠ .putWindow n v crc) (hreset : ∀ arg crc, c ≠ .softReset arg crc)
    (s : State) : (requestOp c s).state.fenceView = s.fenceView := by
  cases c with
  | putWindow n v crc => exact absurd rfl (hput n v crc)
  | softReset arg crc => exact absurd rfl (hreset arg crc)
  | get o crc => exact readEffect_view o s
  | getCapture m crc => exact readEffect_view (.capture m) s
  | putDevice v crc => exact ite_view rfl rfl
  | putGroupCfg g v crc => exact putGroupCfg_view g v s
  | putTimerCfg t v crc => exact putTimerCfg_view t v s
  | putMonCfg m v crc => exact putMonCfg_view m v s
  | putCmtCfg g v crc => exact putCmtCfg_view g v s
  | activate arg crc => exact ite_view rfl (ite_view rfl rfl)
  | bypass arg crc => exact bypassAction_view arg s
  | enableGroup arg crc => exact withIndex_view enableAction_view arg s
  | disableGroup arg crc => exact withIndex_view disableAction_view arg s
  | sealGroup arg crc => exact withIndex_view sealAction_view arg s
  | discard arg crc => exact withIndex_view discardAction_view arg s
  | clearFault arg crc => exact withIndex_view (fun _ _ => rfl) arg s
  | timerStart arg crc => exact withIndex_view timerStartAction_view arg s
  | timerStop arg crc => exact withIndex_view timerStopAction_view arg s
  | timerPreset arg crc => exact withIndex_view (fun _ _ => rfl) arg s
  | setCmt arg crc => exact setCmtAction_view arg s
  | _ => rfl

end Sys2Proof.Machine

namespace Sys2Proof.Machine

/-! ## The grant, branch by branch (R134) -/

/-- Everything a grant can do: nothing, when no requester is chosen or the chosen one offers nothing; the head of a port
that waits for the memory is placed; or the entry that the engine offers is. -/
theorem grant_cases (s : State) : grant s = s ∨
    (∃ p sl f, chosen s = some (PortId.requester p) ∧ (s.port p).memoryHead = some (sl, f) ∧
      grant s = grantPort p sl f s) ∨
    (∃ e, chosen s = some .ce ∧ engineOffer s = some e ∧ grant s = grantEngine e s) := by
  cases hc : chosen s with
  | none => exact .inl (by simp only [grant, hc])
  | some x =>
    cases x with
    | hp =>
      cases hm : s.hp.memoryHead with
      | none => exact .inl (by simp only [grant, hc, hm])
      | some y => exact .inr (.inl ⟨.hp, y.1, y.2, rfl, hm, by simp only [grant, hc, hm]⟩)
    | cp =>
      cases hm : s.cp.memoryHead with
      | none => exact .inl (by simp only [grant, hc, hm])
      | some y => exact .inr (.inl ⟨.cp, y.1, y.2, rfl, hm, by simp only [grant, hc, hm]⟩)
    | ce =>
      cases ho : engineOffer s with
      | none => exact .inl (by simp only [grant, hc, ho])
      | some e => exact .inr (.inr ⟨e, rfl, rfl, grant_engine hc ho⟩)

/-- The record of a granted port head (R131). -/
def portRecord (p : PortId) (sl : Slot) (forwarded : Bool) (s : State) : IssueRec :=
  ⟨PortId.requester p, sl.req, some sl.id, if forwarded then some (snapshotOf s sl) else none, none, false⟩

/-- The record of a granted commit write (R67). -/
def commitRecord (e : Entry) : IssueRec := ⟨.ce, commitRequest e, none, none, some ⟨e.group, e.addr⟩, false⟩

theorem grantPort_view (p : PortId) (sl : Slot) (f : Bool) (s : State) :
    (grantPort p sl f s).fenceView = (s.issue ++ [portRecord p sl f s], s.windows) :=
  setHead_view p .issued _

theorem grantEngine_view (e : Entry) (s : State) :
    (grantEngine e s).fenceView = (s.issue ++ [commitRecord e], s.windows) :=
  observe_view .ce .write [e.addr] _

/-- A consumer read under the fence does not wait for the grant (R94). -/
theorem not_fenced_of_waits {s : State} {sl : Slot} {f : Bool} (hm : s.cp.memoryHead = some (sl, f))
    (hw : waits s .cp = true) : fenced s sl.req = false := by
  simpa [waits, hm] using hw

/-- What a grant places: the head of a port that waits for the grant, or a commit write (R131, R134). -/
theorem placed_cases {s : State} {x : IssueRec} (h : (grant s).issue = s.issue ++ [x]) :
    (∃ p sl f, waits s (PortId.requester p) = true ∧ (s.port p).memoryHead = some (sl, f) ∧ x = portRecord p sl f s) ∨
    ∃ e, x = commitRecord e := by
  have last : ∀ {r : IssueRec} {t : State}, grant s = t → t.fenceView = (s.issue ++ [r], s.windows) → x = r := by
    intro r t ht hv
    rw [ht, (Prod.mk.inj hv).1] at h
    simpa using h.symm
  rcases grant_cases s with hs | ⟨p, sl, f, hc, hm, hg⟩ | ⟨e, -, -, hg⟩
  · rw [hs] at h
    simp at h
  · exact .inl ⟨p, sl, f, chosen_waits hc, hm, last hg (grantPort_view p sl f s)⟩
  · exact .inr ⟨e, last hg (grantEngine_view e s)⟩

/-- Outside the fence a read has no word in the windows of the group being drained (R94). -/
theorem clear_of_not_fenced {s : State} (hw : WindowsApart s) {r : Request} (hf : fenced s r = false)
    (hk : r.kind = .read) {g : Fin 4} (hg : s.engine.state = .draining g) :
    (requestWords r).any (inWindowOf s g) = false := by
  rw [Bool.eq_false_iff] at hf ⊢
  exact fun hin => hf ((fenced_iff hw r).mpr ⟨hk, g, hg, hin⟩)

end Sys2Proof.Machine

namespace Sys2Proof.Machine

/-! ## The order of the fence (R94, R97) -/

/-- The fence keeps its order while the issue list only loses records and the windows of the groups with a commit write
outstanding cover what they covered. -/
theorem FenceOrder.of_sublist {s t : State} (h : FenceOrder s) (hi : t.issue.Sublist s.issue)
    (hw : ∀ a ∈ t.issue, a.Live → ∀ x ∈ a.entry.toList, inWindowOf t x.group = inWindowOf s x.group) : FenceOrder t :=
  (h.sublist hi).imp_of_mem fun ha _ hab hr ho hr' ho' hk x hx => by
    rw [hw _ ha ⟨hr, ho⟩ x hx]
    exact hab hr ho hr' ho' hk x hx

theorem FenceOrder.of_view {s t : State} (h : FenceOrder s) (hv : t.fenceView = s.fenceView) : FenceOrder t := by
  obtain ⟨hi, hw⟩ := Prod.mk.inj hv
  exact h.of_sublist (by rw [hi]) fun _ _ _ _ _ => by rw [inWindowOf_congr hw]

/-- A record joins the issue list: a commit write stands behind all others, and a consumer read must be clear of the
windows of every group with a commit write outstanding. -/
theorem FenceOrder.places {s t : State} {r : IssueRec} (h : FenceOrder s)
    (hv : t.fenceView = (s.issue ++ [r], s.windows))
    (hr : r.requester = .cp → r.req.kind = .read → ∀ a ∈ s.issue, a.Live → ∀ x ∈ a.entry.toList,
      (requestWords r.req).any (inWindowOf s x.group) = false) : FenceOrder t := by
  obtain ⟨hi, hw⟩ := Prod.mk.inj hv
  unfold FenceOrder
  rw [hi, inWindowOf_congr hw]
  refine List.pairwise_append.mpr ⟨h, List.pairwise_singleton _ _, fun a ha b hb => ?_⟩
  rw [List.mem_singleton.mp hb]
  exact fun hce ho hcp _ hk => hr hcp hk a ha ⟨hce, ho⟩

/-- With no commit write of a drain in the issue list there is nothing to keep in order. -/
theorem FenceOrder.of_no_commit {s : State} (h : ∀ a ∈ s.issue, ¬ a.Live) : FenceOrder s :=
  List.pairwise_of_forall_mem_list fun a ha _ _ hr ho => absurd ⟨hr, ho⟩ (h a ha)

/-- An outstanding commit write is of a SEALED entry of the group being drained (R66). -/
theorem EngineLaw.commit_of_live {s : State} (h : EngineLaw s) {a : IssueRec} (ha : a ∈ s.issue) (hl : a.Live)
    {x : EntryRef} (hx : x ∈ a.entry.toList) :
    s.engine.state = .draining x.group ∧ ∃ e ∈ s.queue, e.group = x.group := by
  obtain ⟨hr, ho⟩ := hl
  have hmem : a.entry ∈ liveCommits s.issue := List.mem_map_of_mem (List.mem_filter.mpr ⟨ha, by simp [hr, ho]⟩)
  obtain ⟨e, he, hae, -, hd⟩ := h.commits _ hmem
  have href : e.ref = some x := hae.symm.trans (by simpa using hx)
  have hg : e.group = x.group := by
    simp only [Entry.ref, Option.some.injEq] at href
    rw [← href]
  exact ⟨hg ▸ hd, e, he, hg⟩

/-- The law of the fence, with the laws it rests on as they are proved step by step. -/
structure FenceLaw (s : State) : Prop where
  staging : StagingLaw (fun _ => True) s
  apart : WindowsApart s
  engine : EngineLaw s
  order : FenceOrder s

theorem FenceLaw.of_sound {s : State} (h : FenceSound s) : FenceLaw s := by
  obtain ⟨hs, hw, he, ho⟩ := h
  exact ⟨(stagingSound_iff s).mp hs, hw, ((engineSound_iff s).mp he).2, ho⟩

/-- A grant keeps the order of the fence: a consumer read that is granted is clear of the windows of the group being
drained (R94, R97). -/
theorem grant_fenceOrder {s : State} (h : FenceLaw s) : FenceOrder (grant s) := by
  rcases grant_cases s with hs | ⟨p, sl, f, hc, hm, hg⟩ | ⟨e, -, -, hg⟩
  · rw [hs]; exact h.order
  · rw [hg]
    refine h.order.places (grantPort_view p sl f s) fun hcp hk a ha hl x hx => ?_
    cases p with
    | hp => cases hcp
    | cp =>
      obtain ⟨hd, -⟩ := h.engine.commit_of_live ha hl hx
      exact clear_of_not_fenced h.apart (not_fenced_of_waits hm (chosen_waits hc)) hk hd
  · rw [hg]
    exact h.order.places (grantEngine_view e s) nofun

theorem takeAnswer_fenceOrder {s : State} (h : FenceOrder s) (ans : AnswerStatus) (data : List Word) :
    FenceOrder (takeAnswer ans data s) := by
  unfold takeAnswer
  split
  · exact h
  next r rest hi =>
    have departed : FenceOrder (departRecord r rest s) :=
      h.of_sublist (by rw [hi]; exact List.sublist_cons_self r rest) fun _ _ _ _ _ => rfl
    exact departed.of_view (routeAnswer_view r ans data _)

/-- A window is replaced with both sides of the change free, so that no group with a commit write outstanding loses or
gains a word (R4). -/
theorem putWindow_fenceOrder {s : State} (h : FenceLaw s) (n : Fin 8) (v : WindowRaw) :
    FenceOrder (putWindow n v s).state := by
  unfold putWindow
  split
  · exact h.order
  next w _ =>
    split
    · exact h.order
    next hfree =>
      simp only [not_or, Bool.not_eq_false] at hfree
      obtain ⟨hold, hnew⟩ := hfree
      split
      · exact h.order
      · refine h.order.of_sublist (List.Sublist.refl _) fun a ha hl x hx => funext fun word => ?_
        obtain ⟨-, e, he, hg⟩ := h.engine.commit_of_live ha hl hx
        exact inWindowOf_set hold hnew (fun hd => h.staging.no_entries hd he hg) word

theorem softReset_fenceOrder (s : State) : FenceOrder (softReset s) := by
  refine .of_no_commit fun a ha hl => ?_
  obtain ⟨r, -, rfl⟩ := List.mem_map.mp ha
  cases hl.2

theorem hardReset_fenceOrder (s : State) : FenceOrder (hardReset s) := List.Pairwise.nil

/-- Every request keeps the order of the fence (R167). -/
theorem requestOp_fenceOrder {s : State} (h : FenceLaw s) (c : Instr) : FenceOrder (requestOp c s).state := by
  by_cases hput : ∃ n v crc, c = .putWindow n v crc
  · obtain ⟨n, v, crc, rfl⟩ := hput
    exact putWindow_fenceOrder h n v
  by_cases hreset : ∃ arg crc, c = .softReset arg crc
  · obtain ⟨arg, crc, rfl⟩ := hreset
    change FenceOrder (if arg ≠ 0 then refuse .badValue s else done (softReset s)).state
    split
    · exact h.order
    · exact softReset_fenceOrder s
  exact h.order.of_view (requestOp_view (fun n v crc hc => hput ⟨n, v, crc, hc⟩)
    (fun arg crc hc => hreset ⟨arg, crc, hc⟩) s)

theorem takeRequest_fenceOrder {s : State} (h : FenceLaw s) (c : Instr) (body : List Byte) (crc : Byte) :
    FenceOrder (takeRequest body crc (requestOp c) s) := by
  unfold takeRequest
  split
  · exact (requestOp_fenceOrder h c).of_view rfl
  · exact h.order.of_view rfl

/-- A byte clocked in keeps the order of the fence, also when it completes a request (R164, R165). -/
theorem clockByte_fenceOrder {s : State} (h : FenceLaw s) (b : Byte) : FenceOrder (clockByte b s) := by
  have take : ∀ bytes, FenceOrder (takeBytes bytes s) := by
    intro bytes
    unfold takeBytes
    split
    next c _ => exact takeRequest_fenceOrder h c _ _
    next => exact h.order
  unfold clockByte
  split
  · exact h.order
  · exact h.order
  · unfold receiveRequestByte
    split
    · exact take _
    · exact h.order.of_view rfl
  · exact h.order.of_view rfl
  · exact h.order.of_view rfl

theorem startFrame_view (s : State) : (startFrame s).fenceView = s.fenceView := by
  unfold startFrame
  repeat' split
  all_goals rfl

theorem endFrame_view (s : State) : (endFrame s).fenceView = s.fenceView := by
  unfold endFrame
  split <;> rfl

theorem exec_request_fenceOrder {c : Instr} {body : List Byte} {s t : State} (hl : FenceLaw s)
    (hb : c.requestBody = some body) (h : exec c s = .next t) : FenceOrder t := by
  rcases exec_request hb s with he | he <;> rw [he] at h <;> cases h
  · exact hl.order
  · unfold requestArrives
    split
    · exact takeRequest_fenceOrder hl c body _
    · exact hl.order

/-- Every command keeps the order of the fence. -/
theorem exec_fenceOrder {c : Instr} {s t : State} (hl : FenceLaw s) (h : exec c s = .next t) : FenceOrder t := by
  have still : t.fenceView = s.fenceView → FenceOrder t := hl.order.of_view
  cases c with
  | powerOn => cases h; exact hardReset_fenceOrder s
  | rstnAssert => cases h; exact hardReset_fenceOrder s
  | rstnRelease => cases h; exact still (releaseReset_view s)
  | requestAccept p r => cases h; exact still (arrive_view p r s)
  | headProcessing p => cases h; exact still (processHead_view p s)
  | memoryGrant => cases h; exact grant_fenceOrder hl
  | memoryAnswer a data => cases h; exact takeAnswer_fenceOrder hl.order a data
  | drainStart => cases h; exact still (testStart_view s)
  | responseDelivery p => cases h; exact still (deliver_view p s)
  | holdTimerExpiry => cases h; exact still (expireHold_view s)
  | serviceTick order => cases h; exact still (serviceTick_view order s)
  | timerStep i => exact still (execTimerStep_view h)
  | pulseEnd g => cases h; exact still rfl
  | syncTransition i level => cases h; exact still (syncSettles_view i level s)
  | choldChange asserted => cases h; exact still (choldSet_view asserted s)
  | frameStart => cases h; exact still (startFrame_view s)
  | frameEnd => cases h; exact still (endFrame_view s)
  | requestByteReceived b => cases h; exact clockByte_fenceOrder hl b
  | _ => exact exec_request_fenceOrder hl rfl h

/-- Every step keeps the order of the fence. -/
theorem step_keeps_fenceOrder {s t : State} (hs : FenceSound s) (h : step s = .next t) : FenceOrder t := by
  unfold step at h
  split at h
  next =>
    obtain ⟨-, -, -, ho⟩ := hs
    cases h
    exact ho.of_view (refclkEdge_view s)
  next c rest _ => exact exec_fenceOrder (.of_sound (s := { s with pending := rest }) hs) h

/-- Settles O59: the laws the fence rests on go from step to step (O55, O56, O58), and with them its order. -/
theorem stepsKeepTheFence : Obligations.StepsKeepTheFence := by
  intro s t hs h
  have ⟨hst, hw, he, _⟩ := hs
  obtain ⟨hst', he'⟩ := stepsKeepTheEngine s t ⟨hst, he⟩ h
  exact ⟨hst', step_keeps_windowsApart hst hw h, he', step_keeps_fenceOrder hs h⟩

end Sys2Proof.Machine

namespace Sys2Proof.Machine

/-! ## The fences at the grant (R11, R94, R95) -/

/-- With no requester waiting the arbiter makes no grant (R134). -/
theorem grant_none {s : State} (h : ∀ x, waits s x = false) : grant s = s := by
  have hc : chosen s = none := by
    unfold chosen
    split
    · exact List.find?_eq_none.mpr fun x _ => by simp [h x]
    · rfl
  simp only [grant, hc]

/-- A head that needs the memory waits to be passed through, or is a forwarded read (R127). -/
theorem memoryHead_phase {p : Port} {sl : Slot} {f : Bool} (h : p.memoryHead = some (sl, f)) :
    sl.phase.passesThrough = true ∨ sl.phase.forwards = true := by
  unfold Port.memoryHead at h
  split at h
  · split at h
    next hph => cases h; exact .inl (by rw [hph]; rfl)
    next hph => cases h; exact .inr (by rw [hph]; rfl)
    all_goals cases h
  · cases h

theorem TableSound.headClear {s : State} (h : TableSound s) (p : PortId) : HeadClear s p := by
  obtain ⟨-, -, -, -, -, hhp, hcp⟩ := h
  cases p
  · exact hhp
  · exact hcp

/-- Settles O17, by what a grant places. -/
theorem memoryGrantKeepsTheFences : Obligations.MemoryGrantKeepsTheFences := by
  refine ⟨fun s g hg => ⟨fun t x ht hx hcp hk hw => ?_, fun i r cls hh hk hw hin hhp hce => ?_⟩,
    fun s t x hs ht hx hk hce => ?_⟩
  · cases ht
    rcases placed_cases hx with ⟨p, sl, f, hwait, hm, rfl⟩ | ⟨e, rfl⟩
    · cases p with
      | hp => cases hcp
      | cp => exact clear_of_not_fenced hw (not_fenced_of_waits hm hwait) hk hg
    · cases hcp
  · have hm : s.cp.memoryHead = some (⟨i, r, .head cls .passThrough⟩, false) := by simp [Port.memoryHead, hh]
    have hfenced : fenced s r = true := (fenced_iff hw r).mpr ⟨hk, g, hg, hin⟩
    have hcp : waits s .cp = false := by simp [waits, hm, hfenced]
    exact congrArg Host.Outcome.next (grant_none fun x => by cases x; exacts [hhp, hcp, hce])
  · cases ht
    rcases placed_cases hx with ⟨p, sl, f, -, hm, rfl⟩ | ⟨e, rfl⟩
    · obtain ⟨hpass, hread⟩ := hs.headClear p sl (Option.mem_toList.mpr (memoryHead_head hm))
      rcases memoryHead_phase hm with hph | hph
      · exact hpass hph hk
      · cases (hread hph).symm.trans hk
    · exact absurd rfl hce

end Sys2Proof.Machine

namespace Sys2Proof.Machine

/-! ## Forwarded reads (R82 to R92) -/

/-- A slot that is answered by its number, and the other slots with other numbers (R132). -/
theorem map_answer_split {l1 l2 : List Slot} {i : Fin 4} (q : Request) (resp : Response)
    (h : ∀ sl ∈ l1 ++ l2, sl.id ≠ i) : (l1 ++ ⟨i, q, .issued⟩ :: l2).map (Slot.answer i resp) =
      l1 ++ ⟨i, q, .answered resp⟩ :: l2 := by
  have other : ∀ l : List Slot, (∀ sl ∈ l, sl.id ≠ i) → l.map (Slot.answer i resp) = l := fun l hl =>
    (List.map_congr_left fun sl hsl => if_neg fun hc => hl sl hsl hc.1).trans (List.map_id l)
  have own : Slot.answer i resp ⟨i, q, .issued⟩ = ⟨i, q, .answered resp⟩ := if_pos ⟨rfl, rfl⟩
  rw [List.map_append, List.map_cons, own, other l1 fun sl hsl => h sl (List.mem_append_left _ hsl),
    other l2 fun sl hsl => h sl (List.mem_append_right _ hsl)]

/-- The answer of the oldest record, when it is one of the Host Port, goes to its slot (R132). -/
theorem exec_hostAnswer {s : State} {x : IssueRec} {rest : List IssueRec} {i : Fin 4} {q : Request}
    {l1 l2 : List Slot} (a : AnswerStatus) (data : List Word) (hi : s.issue = x :: rest) (hr : x.requester = .hp)
    (ho : x.orphan = false) (hs : x.slot = some i) (hl : s.hp.slots = l1 ++ ⟨i, q, .issued⟩ :: l2)
    (hid : ∀ sl ∈ l1 ++ l2, sl.id ≠ i) : exec (.memoryAnswer a data) s = .next { s with
      issue := rest
      hp := { s.hp with slots := l1 ++ ⟨i, q, .answered (recordResponse x a data)⟩ :: l2 } } := by
  rw [← map_answer_split q _ hid, ← hl]
  simp [exec, execMemoryAnswer, takeAnswer, hi, routeAnswer, ho, hr, answerPort, hs, departRecord, State.setPort,
    State.port]

theorem forwardResponse_eq (r : Request) (snap : List Overlay) (a : AnswerStatus) (data : List Word) :
    forwardResponse r snap a data = if a = .error then ⟨.memory, []⟩
      else ⟨.ok, List.zipWith Overlay.lay snap ((List.range r.count.toNat).map fun k => data.getD k Word.zero)⟩ := by
  cases a <;> rfl

/-- A lane of a word, and the same lane of a lane mask. -/
def SameLane (lane : Word → Byte) (covers : LaneMask → Bool) : Prop :=
  (lane = Word.lane0 ∧ covers = LaneMask.lane0) ∨ (lane = Word.lane1 ∧ covers = LaneMask.lane1) ∨
    (lane = Word.lane2 ∧ covers = LaneMask.lane2) ∨ (lane = Word.lane3 ∧ covers = LaneMask.lane3)

theorem mergeLanes_lane {lane : Word → Byte} {covers : LaneMask → Bool} (h : SameLane lane covers) (m : LaneMask)
    (new old : Word) : lane (mergeLanes m new old) = if covers m then lane new else lane old := by
  rcases h with ⟨rfl, rfl⟩ | ⟨rfl, rfl⟩ | ⟨rfl, rfl⟩ | ⟨rfl, rfl⟩ <;> rfl

/-- A lane of a word under a part: the part's where the part covers it, else the word's (R85). -/
theorem layPart_lane {lane : Word → Byte} {covers : LaneMask → Bool} (h : SameLane lane covers)
    (p : Option OverlayPart) (w : Word) :
    lane (layPart p w) = ((p.filter fun x => covers x.mask).map fun x => lane x.data).getD (lane w) := by
  cases p with
  | none => rfl
  | some x =>
    rw [layPart, mergeLanes_lane h]
    cases hc : covers x.mask <;> simp [Option.filter, hc]

/-- Settles O19: the answer goes to the slot of its record, and each lane is the open part's, else the sealed part's,
else the memory's. -/
theorem forwardedAnswerMergesTheSnapshot : Obligations.ForwardedAnswerMergesTheSnapshot := by
  refine ⟨fun s x rest i q l1 l2 snap a data hi hr ho hsnap hs hl hid => ?_, fun o w lane covers h => ?_⟩
  · rw [exec_hostAnswer a data hi hr ho hs hl hid, recordResponse, hsnap, ← forwardResponse_eq]
  · rw [Overlay.lay, layPart_lane h, layPart_lane h]
    cases o.openPart.filter fun x => covers x.mask with
    | some x => rfl
    | none => cases o.sealedPart.filter fun x => covers x.mask <;> rfl

/-! ### At the head of the Host Port (R82 to R87) -/

@[simp] theorem seenAtHead_queue (p : PortId) (r : Request) (s : State) : (seenAtHead p r s).queue = s.queue :=
  observe_queue _ _ _ _

/-- A host read of a STAGED window that forwards, with its group not DISABLED, takes the phase of R86 or R87. -/
theorem headProcessing_forwards {s : State} {i : Fin 4} {r : Request} {n : Fin 8}
    (h : s.hp.head? = some ⟨i, r, .waiting⟩) (hf : FormSound r) (hr : r.kind = .read) (hm : s.mode ≠ .bypass)
    (hw : WindowsApart s) (hn : insideOne s n r = true) (hk : (s.windows.get n).kind = .staged)
    (hfw : (s.windows.get n).forward = true) (hd : (s.group (s.windows.get n).group).state ≠ .disabled) :
    exec (.headProcessing .hp) s = .next ((seenAtHead .hp r s).setHead .hp
      (forwardPhase (stagedClass s n) (s.windows.get n).group r (seenAtHead .hp r s))) := by
  rw [headProcessing_host h (classify_inside hw hf hm hn), windowClass_staged hk]
  exact congrArg _ ((handleHost_read (by simpa using hd) hr).trans (if_pos hfw))

theorem forwardPhase_covered {cls : ReqClass} {g : Fin 4} {r : Request} {s : State}
    (h : (requestWords r).all (fun a => (overlayOf s.queue g a).full) = true) : forwardPhase cls g r s =
      .answered ⟨.ok, (requestWords r).map fun a => (overlayOf s.queue g a).lay Word.zero⟩ := by
  unfold forwardPhase
  rw [if_pos (by rwa [List.all_map]), List.map_map]
  rfl

theorem forwardPhase_uncovered {cls : ReqClass} {g : Fin 4} {r : Request} {s : State}
    (h : (requestWords r).all (fun a => (overlayOf s.queue g a).full) = false) :
    forwardPhase cls g r s = .head cls .forwarded :=
  if_neg (by rw [List.all_map]; exact Bool.eq_false_iff.mp h)

/-- The part of an overlay source that copies entries of a role (R84). -/
theorem overlayOf_part {role : Role} {part : Overlay → Option OverlayPart}
    (h : (role = .sealed ∧ part = Overlay.sealedPart) ∨ (role = .opened ∧ part = Overlay.openPart)) (q : List Entry)
    (g : Fin 4) (a : Addr) : part (overlayOf q g a) = (q.find? (Entry.at g role a)).map Entry.part := by
  rcases h with ⟨rfl, rfl⟩ | ⟨rfl, rfl⟩ <;> rfl

theorem Entry.at_iff {g : Fin 4} {role : Role} {a : Addr} {e : Entry} :
    e.at g role a = true ↔ e.group = g ∧ e.role = role ∧ e.addr = a := by
  simp [Entry.at, and_assoc]

/-- One of the four lanes of a lane mask. -/
def MaskLane (lane : LaneMask → Bool) : Prop :=
  lane = LaneMask.lane0 ∨ lane = LaneMask.lane1 ∨ lane = LaneMask.lane2 ∨ lane = LaneMask.lane3

theorem eq_full_iff {m : LaneMask} : m = LaneMask.full ↔ ∀ lane, MaskLane lane → lane m = true := by
  constructor
  · rintro rfl lane (rfl | rfl | rfl | rfl) <;> rfl
  · intro h
    obtain ⟨b0, b1, b2, b3⟩ := m
    obtain rfl : b0 = true := h LaneMask.lane0 (.inl rfl)
    obtain rfl : b1 = true := h LaneMask.lane1 (.inr (.inl rfl))
    obtain rfl : b2 = true := h LaneMask.lane2 (.inr (.inr (.inl rfl)))
    obtain rfl : b3 = true := h LaneMask.lane3 (.inr (.inr (.inr rfl)))
    rfl

theorem uniteLanes_lane {lane : LaneMask → Bool} (h : MaskLane lane) (a b : LaneMask) :
    lane (uniteLanes a b) = (lane a || lane b) := by
  rcases h with rfl | rfl | rfl | rfl <;> rfl

/-- A part covers a lane when it is there and its mask does (R84). -/
theorem partMask_lane {lane : LaneMask → Bool} (h : MaskLane lane) (p : Option OverlayPart) :
    lane (partMask p) = true ↔ ∃ x, p = some x ∧ lane x.mask = true := by
  cases p with
  | none => rcases h with rfl | rfl | rfl | rfl <;> simp [partMask, LaneMask.none]
  | some x => simp [partMask]

/-- A word is fully covered when each lane is in the mask of one of its parts (R84). -/
theorem Overlay.full_iff (o : Overlay) : o.full = true ↔ ∀ lane, MaskLane lane →
    ∃ x : OverlayPart, (o.sealedPart = some x ∨ o.openPart = some x) ∧ lane x.mask = true := by
  unfold Overlay.full
  rw [beq_iff_eq, eq_full_iff]
  refine forall₂_congr fun lane h => ?_
  rw [uniteLanes_lane h, Bool.or_eq_true, partMask_lane h, partMask_lane h, ← exists_or]
  exact exists_congr fun x => or_and_right.symm

/-- Settles O13, by the phase a forwarded read takes and by what is found of each role at a word. -/
theorem forwardedReadAtTheHead : Obligations.ForwardedReadAtTheHead := by
  refine ⟨fun s i r n g h hf hr hm hw hn hk hg hfw hd => ?_, fun q g a role part hp => ?_, Overlay.full_iff⟩
  · subst hg
    rw [headProcessing_forwards h hf hr hm hw hn hk hfw hd, ← seenAtHead_queue .hp r s]
    exact ⟨fun hc => by rw [forwardPhase_covered hc], fun hc => by rw [forwardPhase_uncovered hc]⟩
  · rw [overlayOf_part hp]
    refine ⟨fun hno => ?_, fun e l1 l2 hq he hrole ha hl1 => ?_⟩
    · rw [List.find?_eq_none.mpr fun e he hat => hno e he (Entry.at_iff.mp hat), Option.map_none]
    · have hfound : q.find? (Entry.at g role a) = some e := List.find?_eq_some_iff_append.mpr
        ⟨Entry.at_iff.mpr ⟨he, hrole, ha⟩, l1, l2, hq, fun y hy => by
          simpa only [Bool.not_eq_true', Bool.eq_false_iff] using fun hat => hl1 y hy (Entry.at_iff.mp hat)⟩
      rw [hfound]
      rfl

end Sys2Proof.Machine

namespace Sys2Proof.Machine

/-! ## The laws of the clocked blocks, block by block (R100, R101, R112, R151, R154) -/

/-- The law of one commit line (R151, R154). -/
def Line.Sound (x : Line) : Prop :=
  x.countdown ≤ 255 ∧ 1 ≤ x.width ∧ x.width ≤ 255 ∧ (x.countdown ≠ 0 → x.mode = .pulse ∧ x.logic = true)

/-- The law of one timer beside its group's configuration (R101, R112). -/
def TimerFits (c : GroupCfg) (x : Timer) : Prop :=
  TimerSound x ∧ pairingConflict c.sources x.source x.mode = false

/-- The law of the tick generator (R100). -/
def TickGen.Sound (x : TickGen) : Prop :=
  1 ≤ x.divisor ∧ x.divisor ≤ 256 ∧ 1 ≤ x.inForce ∧ x.inForce ≤ 256 ∧ x.count < x.inForce

/-- The law of the clocked blocks. -/
structure ClockLaw (s : State) : Prop where
  timers : ∀ t, TimerFits (s.group t).cfg (s.timer t)
  lines : ∀ g, (s.lines.get g).Sound
  tick : s.tick.Sound

theorem clockLaw_iff (s : State) :
    ClockLaw s ↔ TimersSound s ∧ PairingSound s ∧ LinesSound s ∧ TickSound s :=
  ⟨fun h => ⟨fun t => (h.timers t).1, fun t => (h.timers t).2, h.lines, h.tick⟩,
    fun ⟨ht, hp, hl, hk⟩ => ⟨fun t => ⟨ht t, hp t⟩, hl, hk⟩⟩

/-! ### One commit line -/

theorem Line.Sound.onSeal {x : Line} (h : x.Sound) : x.onSeal.Sound := by
  obtain ⟨hcount, hone, hwidth, hpulse⟩ := h
  unfold Line.onSeal
  split
  next => exact ⟨hcount, hone, hwidth, fun hc => ⟨(hpulse hc).1, rfl⟩⟩
  all_goals exact ⟨hcount, hone, hwidth, hpulse⟩

/-- A completion starts a pulse of the line's own width; in the other modes no pulse runs (R153 to R156). -/
theorem Line.Sound.onCompletion {x : Line} (h : x.Sound) : x.onCompletion.Sound := by
  obtain ⟨hcount, hone, hwidth, hpulse⟩ := h
  unfold Line.onCompletion
  split
  next hm => exact ⟨hwidth, hone, hwidth, fun _ => ⟨hm, rfl⟩⟩
  next hm => exact ⟨hcount, hone, hwidth, fun hc => nomatch hm.symm.trans (hpulse hc).1⟩
  next hm => exact ⟨hcount, hone, hwidth, fun hc => nomatch hm.symm.trans (hpulse hc).1⟩
  next => exact ⟨hcount, hone, hwidth, hpulse⟩

theorem Line.Sound.onTick {x : Line} (h : x.Sound) : x.onTick.Sound := by
  obtain ⟨hcount, hone, hwidth, hpulse⟩ := h
  unfold Line.onTick
  split
  · exact ⟨hcount, hone, hwidth, hpulse⟩
  next hpos =>
    split
    · exact ⟨Nat.zero_le _, hone, hwidth, fun hc => absurd rfl hc⟩
    · exact ⟨(Nat.sub_le _ _).trans hcount, hone, hwidth, fun _ => hpulse hpos⟩

theorem Line.Sound.endPulse {x : Line} (h : x.Sound) : x.endPulse.Sound := by
  obtain ⟨hcount, hone, hwidth, hpulse⟩ := h
  unfold Line.endPulse
  split
  · exact ⟨Nat.zero_le _, hone, hwidth, fun hc => absurd rfl hc⟩
  · exact ⟨hcount, hone, hwidth, hpulse⟩

theorem Line.Sound.setSoftware {x : Line} (level : Bool) (h : x.Sound) : (x.setSoftware level).Sound := by
  obtain ⟨hcount, hone, hwidth, hpulse⟩ := h
  unfold Line.setSoftware
  split
  next hm => exact ⟨hcount, hone, hwidth, fun hc => nomatch hm.symm.trans (hpulse hc).1⟩
  all_goals exact ⟨hcount, hone, hwidth, hpulse⟩

/-- A PUT of CMT_CFG_g stops the countdown when it changes the mode, and else leaves it (R157). -/
theorem Line.Sound.configure {x : Line} (mode : LineMode) (polarity : Polarity) {width : Nat} (h1 : 1 ≤ width)
    (h255 : width ≤ 255) (h : x.Sound) : (x.configure mode polarity width).Sound := by
  obtain ⟨hcount, -, -, hpulse⟩ := h
  unfold Line.configure
  split
  · exact ⟨hcount, h1, h255, hpulse⟩
  · cases mode <;> exact ⟨Nat.zero_le _, h1, h255, fun hc => absurd rfl hc⟩

theorem Line.Sound.softReset {x : Line} (h : x.Sound) : x.softReset.Sound := by
  obtain ⟨-, hone, hwidth, -⟩ := h
  unfold Line.softReset
  split <;> exact ⟨Nat.zero_le _, hone, hwidth, fun hc => absurd rfl hc⟩

/-! ### One timer -/

/-- The bound of the *prescale count* (R101). -/
def CountSource.scale : CountSource → Nat
  | .tick k => 2 ^ k.val
  | .sync _ => 1

theorem CountSource.scale_pos (c : CountSource) : 0 < c.scale := by
  cases c with
  | tick k => exact Nat.two_pow_pos _
  | sync e => exact Nat.one_pos

theorem timerSound_iff (x : Timer) : TimerSound x ↔
    x.period ≠ 0 ∧ x.periodNext ≠ some 0 ∧ x.counter.toNat ≤ x.period.toNat ∧
    (x.mode = .up → x.direction = .up) ∧ (x.mode = .down → x.direction = .down) ∧
    (x.mode = .upDown → x.direction = .up → x.counter ≠ x.period) ∧
    (x.mode = .upDown → x.direction = .down → x.counter ≠ 0) ∧ x.prescale < x.source.scale := by
  unfold TimerSound CountSource.scale
  rfl

theorem TimerSound.prescale_lt {x : Timer} (h : TimerSound x) : x.prescale < x.source.scale := by
  obtain ⟨-, -, -, -, -, -, -, hscale⟩ := (timerSound_iff x).mp h
  exact hscale

/-- The start values of a mode: P, counting down, in DOWN mode; 0, counting up, in the others (R111). -/
def Timer.AtStart (x : Timer) : Prop :=
  (x.mode = .down → x.counter = x.period ∧ x.direction = .down) ∧ (x.mode ≠ .down → x.counter = 0 ∧ x.direction = .up)

/-- A timer at its start values is sound. -/
theorem Timer.AtStart.sound {x : Timer} (h : x.AtStart) (hperiod : x.period ≠ 0) (hnext : x.periodNext ≠ some 0)
    (hscale : x.prescale < x.source.scale) : TimerSound x := by
  obtain ⟨hdown, hother⟩ := h
  rw [timerSound_iff]
  by_cases hm : x.mode = .down
  · obtain ⟨hc, hd⟩ := hdown hm
    exact ⟨hperiod, hnext, hc ▸ le_rfl, by simp [hm], fun _ => hd, by simp [hm], by simp [hm], hscale⟩
  · obtain ⟨hc, hd⟩ := hother hm
    exact ⟨hperiod, hnext, hc ▸ Nat.zero_le _, fun _ => hd, fun h => absurd h hm, fun _ _ => hc ▸ hperiod.symm,
      by simp [hd], hscale⟩

/-- A preset changes the counter, the *direction* and the *prescale count* alone (R111). -/
theorem Timer.preset_eq (x : Timer) : x.preset = { x with
    counter := if x.mode = .down then x.period else 0
    direction := if x.mode = .down then .down else .up
    prescale := 0 } := by
  unfold Timer.preset
  split
  next hm => simp [hm]
  next hm => simp [hm]
  next hm => simp [hm]

theorem Timer.preset_sound {x : Timer} (hperiod : x.period ≠ 0) (hnext : x.periodNext ≠ some 0) :
    TimerSound x.preset := by
  rw [Timer.preset_eq]
  refine Timer.AtStart.sound ⟨fun hm => ?_, fun hm => ?_⟩ hperiod hnext x.source.scale_pos
  · exact ⟨if_pos hm, if_pos hm⟩
  · exact ⟨if_neg hm, if_neg hm⟩

/-! ### The move of one step, mode by mode (R103 to R105) -/

section
variable {x : Timer}

theorem Timer.move_up (hm : x.mode = .up) (h : x.counter ≠ x.period) :
    x.move = ⟨x.counter + 1, .up, false, false⟩ := by
  simp [Timer.move, hm, h]

theorem Timer.move_up_wraps (hm : x.mode = .up) (h : x.counter = x.period) : x.move = ⟨0, .up, true, false⟩ := by
  simp [Timer.move, hm, h]

theorem Timer.move_down (hm : x.mode = .down) (h : x.counter ≠ 0) :
    x.move = ⟨x.counter - 1, .down, false, false⟩ := by
  unfold Timer.move
  rw [hm]
  exact if_neg h

theorem Timer.move_down_wraps (hm : x.mode = .down) (h : x.counter = 0) :
    x.move = ⟨x.period, .down, true, false⟩ := by
  unfold Timer.move
  rw [hm]
  exact if_pos h

theorem Timer.move_rising (hm : x.mode = .upDown) (hd : x.direction = .up) :
    x.move = ⟨x.counter + 1, if x.counter + 1 = x.period then .down else .up, false,
      decide (x.counter + 1 = x.period)⟩ := by
  unfold Timer.move
  rw [hm, hd]
  dsimp only
  by_cases h : x.counter + 1 = x.period
  · rw [decide_eq_true h, if_pos h, if_pos h]
  · rw [decide_eq_false h, if_neg h, if_neg h]

theorem Timer.move_falling (hm : x.mode = .upDown) (hd : x.direction = .down) (h : x.counter ≠ 1) :
    x.move = ⟨x.counter - 1, .down, false, false⟩ := by
  unfold Timer.move
  rw [hm, hd]
  exact if_neg (by bv_omega)

theorem Timer.move_falling_wraps (hm : x.mode = .upDown) (hd : x.direction = .down) (h : x.counter = 1) :
    x.move = ⟨0, .up, true, false⟩ := by
  unfold Timer.move
  rw [hm, hd, h]
  rfl

/-! ### One step (R106, R108, R115) -/

/-- A step without WRAP moves the counter and the *direction* alone. -/
theorem Timer.step_moves {m : Move} (h : x.move = m) (hw : m.wrap = false) :
    x.step = { x with counter := m.counter, direction := m.direction } := by
  subst h
  exact if_neg (by simp [hw])

/-- A step with WRAP loads what is pending, and a DOWN timer reloads the period it loads. -/
theorem Timer.step_wraps {m : Move} (h : x.move = m) (hw : m.wrap = true) : x.step = { x with
    counter := if x.mode = .down then x.loadedPeriod else m.counter
    direction := m.direction
    period := x.loadedPeriod
    matchAt := x.matchNext.getD x.matchAt
    periodNext := none
    matchNext := none
    running := !x.oneShot } := by
  subst h
  exact if_pos hw

/-- The values pending at a WRAP are within the range of a period (R101, R115). -/
theorem TimerSound.loadedPeriod_ne (h : TimerSound x) : x.loadedPeriod ≠ 0 := by
  obtain ⟨hperiod, hnext, -⟩ := h
  unfold Timer.loadedPeriod
  cases hn : x.periodNext with
  | none => exact hperiod
  | some p => exact fun hp => hnext (hn.trans (congrArg some hp))

/-- A step with WRAP brings the timer to the start values of what it loads. -/
theorem TimerSound.step_of_wrap {m : Move} (h : TimerSound x) (hmove : x.move = m) (hw : m.wrap = true)
    (hdown : x.mode = .down → m.direction = .down) (hother : x.mode ≠ .down → m.counter = 0 ∧ m.direction = .up) :
    TimerSound x.step := by
  have hload := h.loadedPeriod_ne
  obtain ⟨-, -, -, -, -, -, -, hscale⟩ := (timerSound_iff x).mp h
  rw [Timer.step_wraps hmove hw]
  refine Timer.AtStart.sound ⟨fun hm => ⟨if_pos hm, hdown hm⟩, fun hm => ?_⟩ hload (by simp) hscale
  exact ⟨(if_neg hm).trans (hother hm).1, (hother hm).2⟩

/-- Every step keeps the items of a timer in their relation (R101). -/
theorem TimerSound.step (h : TimerSound x) : TimerSound x.step := by
  obtain ⟨hperiod, hnext, hle, hup, hdown, hrise, hfall, hscale⟩ := (timerSound_iff x).mp h
  cases hm : x.mode with
  | up =>
    by_cases hc : x.counter = x.period
    · exact h.step_of_wrap (Timer.move_up_wraps hm hc) rfl (by simp [hm]) (fun _ => ⟨rfl, rfl⟩)
    · rw [Timer.step_moves (Timer.move_up hm hc) rfl, timerSound_iff]
      exact ⟨hperiod, hnext, by bv_omega, fun _ => rfl, by simp [hm], by simp [hm], by simp [hm], hscale⟩
  | down =>
    by_cases hc : x.counter = 0
    · exact h.step_of_wrap (Timer.move_down_wraps hm hc) rfl (fun _ => rfl) (fun hn => absurd hm hn)
    · rw [Timer.step_moves (Timer.move_down hm hc) rfl, timerSound_iff]
      exact ⟨hperiod, hnext, by bv_omega, by simp [hm], fun _ => rfl, by simp [hm], by simp [hm], hscale⟩
  | upDown =>
    cases hd : x.direction with
    | up =>
      have hne := hrise hm hd
      rw [Timer.step_moves (Timer.move_rising hm hd) rfl, timerSound_iff]
      refine ⟨hperiod, hnext, by bv_omega, by simp [hm], by simp [hm], fun _ hup => ?_, fun _ _ => by bv_omega, hscale⟩
      exact fun htop => nomatch (if_pos htop).symm.trans hup
    | down =>
      by_cases hc : x.counter = 1
      · exact h.step_of_wrap (Timer.move_falling_wraps hm hd hc) rfl (by simp [hm]) (fun _ => ⟨rfl, rfl⟩)
      · have hne := hfall hm hd
        rw [Timer.step_moves (Timer.move_falling hm hd hc) rfl, timerSound_iff]
        exact ⟨hperiod, hnext, by bv_omega, by simp [hm], by simp [hm], by simp, fun _ _ => by bv_omega, hscale⟩

end

end Sys2Proof.Machine

namespace Sys2Proof.Machine

/-! ### PUT and reset of a timer (R111, R113, R114, R118) -/

theorem nextPending_ne {p new : BitVec 16} (slot : Option (BitVec 16)) (h : new ≠ 0) : nextPending p slot new ≠ some 0 := by
  unfold nextPending
  split
  · exact fun hn => h (Option.some.inj hn)
  · exact nofun

theorem TimerSound.putRunning {x : Timer} {c : TimerCfg} (h : TimerSound x) (hc : c.period ≠ 0) :
    TimerSound (x.putRunning c) := by
  obtain ⟨hperiod, -, hrest⟩ := h
  exact ⟨hperiod, nextPending_ne _ hc, hrest⟩

/-- A PUT of a stopped timer brings it to its start values when it changes the mode or the period, and else leaves the
counter and the *direction* (R113). -/
theorem TimerSound.putStopped {x : Timer} {c : TimerCfg} (h : TimerSound x) (hc : c.period ≠ 0) :
    TimerSound (x.putStopped c) := by
  rw [timerSound_iff] at h
  obtain ⟨-, -, hle, hup, hdown, hrise, hfall, hscale⟩ := h
  have kept : (if c.source = x.source then x.prescale else 0) < c.source.scale := by
    split
    next hs => exact hs ▸ hscale
    next => exact c.source.scale_pos
  unfold Timer.putStopped
  dsimp only
  split
  · exact Timer.preset_sound hc nofun
  next hsame =>
    simp only [ne_eq, not_or, not_not] at hsame
    obtain ⟨hm, hp⟩ := hsame
    rw [timerSound_iff]
    simp only [hm, hp]
    exact ⟨hp ▸ hc, nofun, hle, hup, hdown, hrise, hfall, kept⟩

theorem TimerSound.softReset {x : Timer} (h : TimerSound x) : TimerSound x.softReset := by
  obtain ⟨hperiod, hnext, -⟩ := h
  obtain ⟨hp, -, hrest⟩ := Timer.preset_sound hperiod hnext
  exact ⟨hp, nofun, hrest⟩

end Sys2Proof.Machine

namespace Sys2Proof.Machine

/-! ## What leaves the clocked blocks as they are

No operation of the staging path moves a timer, the tick generator or a group's configuration; a seal and a completion
move a commit line. -/

/-- What a step that moves none of the clocked blocks keeps of a state, with the group table. -/
abbrev State.clockView (s : State) : Four Timer × TickGen × Four Line × Four GroupRec :=
  (s.timers, s.tick, s.lines, s.groups)

/-- From `s` to `t` the timers, the tick generator and the configurations stay, and every line stays sound. -/
structure ClockFrame (s t : State) : Prop where
  timers : t.timers = s.timers
  tick : t.tick = s.tick
  cfg : ∀ g, (t.group g).cfg = (s.group g).cfg
  lines : ∀ g, (s.lines.get g).Sound → (t.lines.get g).Sound

theorem ClockFrame.refl (s : State) : ClockFrame s s := ⟨rfl, rfl, fun _ => rfl, fun _ => id⟩

theorem ClockFrame.trans {s t u : State} (h1 : ClockFrame s t) (h2 : ClockFrame t u) : ClockFrame s u :=
  ⟨h2.timers.trans h1.timers, h2.tick.trans h1.tick, fun g => (h2.cfg g).trans (h1.cfg g),
    fun g h => h2.lines g (h1.lines g h)⟩

theorem ClockFrame.of_view {s t : State} (h : t.clockView = s.clockView) : ClockFrame s t := by
  simp only [State.clockView, Prod.mk.injEq] at h
  obtain ⟨ht, hk, hl, hg⟩ := h
  exact ⟨ht, hk, fun g => by rw [State.group_congr hg], fun g => by rw [hl]; exact id⟩

/-- A step that changes the record of one group but for its configuration, and its line soundly. -/
theorem ClockFrame.of_group {s t : State} {g : Fin 4} {f : GroupRec → GroupRec} {φ : Line → Line}
    (ht : t.timers = s.timers) (hk : t.tick = s.tick) (hg : t.groups = s.groups.modify g f)
    (hf : ∀ x, (f x).cfg = x.cfg) (hl : t.lines = s.lines.modify g φ) (hφ : ∀ {x : Line}, x.Sound → (φ x).Sound) :
    ClockFrame s t := by
  refine ⟨ht, hk, fun k => ?_, fun k hk => ?_⟩
  · simp only [State.group, hg, Four.get_modify]
    split
    next h => rw [hf, h]
    next => rfl
  · rw [hl, Four.get_modify]
    split
    next h => exact hφ (h ▸ hk)
    next => exact hk

/-- A step that changes the record of one group alone, but for its configuration. -/
theorem ClockFrame.of_record {s t : State} {g : Fin 4} {f : GroupRec → GroupRec} (ht : t.timers = s.timers)
    (hk : t.tick = s.tick) (hg : t.groups = s.groups.modify g f) (hf : ∀ x, (f x).cfg = x.cfg)
    (hl : t.lines = s.lines) : ClockFrame s t :=
  .of_group (φ := id) ht hk hg hf (by rw [hl]; exact (Four.set_get_self _ _).symm) id

theorem ClockFrame.foldl {α : Type} {f : State → α → State} (hf : ∀ s a, ClockFrame s (f s a)) (l : List α)
    (s : State) : ClockFrame s (l.foldl f s) := by
  induction l generalizing s with
  | nil => exact .refl s
  | cons a l ih => exact (hf s a).trans (ih _)

/-! ### Ports and admission -/

theorem setHead_clock (p : PortId) (ph : SlotPhase) (s : State) : ClockFrame s (s.setHead p ph) :=
  .of_view (by cases p <;> rfl)

theorem setPort_clock (p : PortId) (x : Port) (s : State) : ClockFrame s (s.setPort p x) :=
  .of_view (by cases p <;> rfl)

theorem observe_clock (stream : Requester) (k : Kind) (words : List Addr) (s : State) :
    ClockFrame s (observe stream k words s) :=
  .of_view (observe_frame State.clockView (fun _ _ _ => rfl) stream k words s)

theorem admitted_clock (g : Fin 4) (r : Request) (ph : SlotPhase) (s : State) :
    ClockFrame s ((admitWrite g r s).setHead .hp ph) :=
  .of_record rfl rfl (admitWrite_groups g r s) (fun _ => rfl) rfl

theorem offerAdmission_clock (cls : ReqClass) (g : Fin 4) (policy : FullPolicy) (r : Request) (s : State) :
    ClockFrame s (offerAdmission cls g policy r s) := by
  unfold offerAdmission
  split
  · exact admitted_clock g r _ s
  · exact setHead_clock _ _ s

theorem retryAdmission_clock (s : State) : ClockFrame s (retryAdmission s) := by
  unfold retryAdmission
  repeat' split
  any_goals exact admitted_clock _ _ _ s
  all_goals exact .refl s

theorem expireHold_clock (s : State) : ClockFrame s (expireHold s) := by
  unfold expireHold
  repeat' split
  any_goals exact setHead_clock _ _ s
  all_goals exact .refl s

theorem handleHost_clock (cls : ReqClass) (r : Request) (s : State) : ClockFrame s (handleHost cls r s) := by
  unfold handleHost
  repeat' split
  any_goals exact setHead_clock _ _ s
  all_goals exact offerAdmission_clock _ _ _ _ s

theorem handleConsumer_clock (cls : ReqClass) (r : Request) (s : State) : ClockFrame s (handleConsumer cls r s) := by
  unfold handleConsumer
  repeat' split
  all_goals exact setHead_clock _ _ s

theorem examine_clock (p : PortId) (r : Request) (s : State) : ClockFrame s (examine p r s) := by
  unfold examine
  split
  · exact setHead_clock _ _ s
  · cases p
    · exact handleHost_clock _ _ s
    · exact handleConsumer_clock _ _ s

theorem processHead_clock (p : PortId) (s : State) : ClockFrame s (processHead p s) := by
  unfold processHead
  repeat' split
  any_goals exact .refl s
  exact (observe_clock _ _ _ s).trans (examine_clock _ _ _)

theorem reexamineHost_clock (g : Fin 4) (s : State) : ClockFrame s (reexamineHost g s) := by
  unfold reexamineHost
  repeat' split
  any_goals exact .refl s
  any_goals exact setHead_clock _ _ s
  exact offerAdmission_clock _ _ _ _ s

theorem reexamineConsumer_clock (g : Fin 4) (s : State) : ClockFrame s (reexamineConsumer g s) := by
  rcases reexamineConsumer_cases g s with ⟨h, -⟩ | ⟨_, _, -, h⟩ <;> rw [h]
  · exact .refl s
  · exact setHead_clock _ _ s

theorem deliver_clock (p : PortId) (s : State) : ClockFrame s (deliver p s) := by
  have flagged : ∀ c t, ClockFrame t (causeOf c t) := fun c t => by unfold causeOf; split <;> exact .of_view rfl
  unfold deliver
  repeat' split
  any_goals exact .refl s
  exact (setPort_clock p _ s).trans (flagged _ _)

theorem arrive_clock (p : PortId) (r : Request) (s : State) : ClockFrame s (arrive p r s) := by
  unfold arrive
  split <;> exact setPort_clock p _ s

/-! ### Seals, completions and starts -/

theorem sealCore_clock (g : Fin 4) (s : State) : ClockFrame s (sealCore g s) :=
  .of_group rfl rfl (sealCore_groups g s) (fun _ => rfl) (sealCore_lines g s) .onSeal

theorem reachDisabled_clock (g : Fin 4) (s : State) : ClockFrame s (reachDisabled g s) := by
  obtain ⟨p, m, e, h⟩ := reachDisabled_eq g s
  rw [h]
  exact .of_record (g := g) (f := fun x => { x with state := .disabled }) rfl rfl rfl (fun _ => rfl) rfl

theorem finishDrain_clock (g : Fin 4) (s : State) : ClockFrame s (finishDrain g s) := by
  have completes : ClockFrame s (completeCore g s) :=
    .of_group rfl rfl (completeCore_groups g s) (fun _ => rfl) (completeCore_lines g s) .onCompletion
  refine completes.trans ?_
  unfold finishDrain completeStopping
  repeat' split
  · exact sealCore_clock g _
  · exact reachDisabled_clock g _
  · exact .refl _

theorem testStart_clock (s : State) : ClockFrame s (testStart s) := by
  obtain ⟨u, hu⟩ := startTest_total s
  rw [testStart_of hu]
  induction hu with
  | rests => exact .refl _
  | starts => exact .of_view rfl
  | @completes s u g rest _ _ _ _ _ _ ih =>
    rw [← finishDrain_eq] at ih
    have begins : ClockFrame s (startedAt g rest s) := .of_view rfl
    exact (begins.trans (finishDrain_clock g _)).trans ih

theorem sealGroup_clock (g : Fin 4) (s : State) : ClockFrame s (sealGroup g s) :=
  (sealCore_clock g s).trans (testStart_clock _)

theorem testCompletion_clock (s : State) : ClockFrame s (testCompletion s) := by
  unfold testCompletion
  repeat' split
  any_goals exact .refl s
  exact (finishDrain_clock _ s).trans (testStart_clock _)

theorem boundary_clock (g : Fin 4) (s : State) : ClockFrame s (boundary g s) := by
  unfold boundary
  repeat' split
  any_goals exact .refl s
  · exact .of_record (g := g) (f := GroupRec.countOverrun) rfl rfl rfl (fun _ => rfl) rfl
  · exact sealGroup_clock g s

theorem disableGroup_clock (g : Fin 4) (s : State) : ClockFrame s (disableGroup g s) := by
  have stops : ClockFrame s (convertHold g (s.inState g .stopping)) := by
    obtain ⟨p, h⟩ := convertHold_eq g (s.inState g .stopping)
    rw [h]
    exact .of_record (g := g) (f := fun x => { x with state := .stopping }) rfl rfl rfl (fun _ => rfl) rfl
  unfold disableGroup
  dsimp only
  repeat' split
  · exact reachDisabled_clock g s
  · exact stops.trans (sealGroup_clock g _)
  · exact stops

theorem windDown_clock (s : State) (g : Fin 4) : ClockFrame s (windDown s g) := by
  unfold windDown
  split
  any_goals exact disableGroup_clock g s
  all_goals exact .refl s

/-! ### Grants and answers -/

theorem grant_clock (s : State) : ClockFrame s (grant s) := by
  have port : ∀ p sl f, ClockFrame s (grantPort p sl f s) := fun p sl f =>
    ClockFrame.trans (t := { s with pointer := PortId.requester p }.placeRecord _) (.of_view rfl) (setHead_clock p _ _)
  have engine : ∀ e, ClockFrame s (grantEngine e s) := fun e =>
    .of_view (observe_frame State.clockView (fun _ _ _ => rfl) _ _ _ _)
  unfold grant
  repeat' split
  any_goals exact .refl s
  any_goals exact port _ _ _
  exact engine _

theorem answerPort_clock (p : PortId) (r : IssueRec) (ans : AnswerStatus) (data : List Word) (s : State) :
    ClockFrame s (answerPort p r ans data s) := by
  unfold answerPort
  split
  · exact .refl s
  · exact setPort_clock p _ s

theorem removeSealed_clock (g : Fin 4) (a : Addr) (s : State) : ClockFrame s (removeSealed g a s) :=
  .of_record rfl rfl (removeSealed_groups g a s) (fun _ => rfl) rfl

theorem dropSealed_clock (g : Fin 4) (a : Addr) (s : State) : ClockFrame s (dropSealed g a s) :=
  (removeSealed_clock g a s).trans (.of_record (g := g) (f := GroupRec.onDrop a) rfl rfl rfl (fun _ => rfl) rfl)

theorem commitAnswer_clock (x : EntryRef) (ans : AnswerStatus) (s : State) : ClockFrame s (commitAnswer x ans s) := by
  have settle : ∀ t, ClockFrame t (testCompletion (retryAdmission t)) := fun t =>
    (retryAdmission_clock t).trans (testCompletion_clock _)
  unfold commitAnswer
  repeat' split
  · exact .refl s
  · exact (removeSealed_clock _ _ s).trans (settle _)
  · exact (dropSealed_clock _ _ s).trans (settle _)
  · exact .of_view rfl
  · exact .refl s

theorem takeAnswer_clock (ans : AnswerStatus) (data : List Word) (s : State) : ClockFrame s (takeAnswer ans data s) := by
  unfold takeAnswer
  split
  · exact .refl s
  next r rest _ =>
    have departs : ClockFrame s (departRecord r rest s) := .of_view rfl
    refine departs.trans ?_
    unfold routeAnswer
    repeat' split
    any_goals exact .refl _
    any_goals exact answerPort_clock _ _ _ _ _
    exact commitAnswer_clock _ ans _

end Sys2Proof.Machine

namespace Sys2Proof.Machine

/-! ## Steps that keep the law of the clocked blocks -/

/-- From `s` to `t` the clocked blocks keep their law. -/
def ClockKept (s t : State) : Prop := ClockLaw s → ClockLaw t

theorem ClockKept.refl (s : State) : ClockKept s s := id

theorem ClockKept.trans {s t u : State} (h1 : ClockKept s t) (h2 : ClockKept t u) : ClockKept s u := h2 ∘ h1

theorem ClockKept.foldl {α : Type} {f : State → α → State} (hf : ∀ s a, ClockKept s (f s a)) (l : List α)
    (s : State) : ClockKept s (l.foldl f s) := by
  induction l generalizing s with
  | nil => exact .refl s
  | cons a l ih => exact (hf s a).trans (ih _)

theorem ClockFrame.kept {s t : State} (h : ClockFrame s t) : ClockKept s t := fun hs =>
  ⟨fun i => by rw [h.cfg, State.timer_congr h.timers]; exact hs.timers i, fun g => h.lines g (hs.lines g),
    h.tick ▸ hs.tick⟩

theorem ClockKept.of_view {s t : State} (h : t.clockView = s.clockView) : ClockKept s t := (ClockFrame.of_view h).kept

/-- A timer replaced by one that fits its group (R101, R112). -/
theorem ClockLaw.modTimer {s : State} {t : Fin 4} {f : Timer → Timer} (h : ClockLaw s)
    (hf : TimerFits (s.group t).cfg (f (s.timer t))) : ClockLaw (s.modTimer t f) := by
  refine ⟨fun i => ?_, h.lines, h.tick⟩
  rw [State.timer_modTimer]
  split
  next hi => exact hi ▸ hf
  next => exact h.timers i

theorem modLine_kept (g : Fin 4) {f : Line → Line} (hf : ∀ {x : Line}, x.Sound → (f x).Sound) (s : State) :
    ClockKept s (s.modLine g f) := fun h =>
  ⟨h.timers, fun k => by
    rw [State.modLine_lines, Four.get_modify]
    split
    · exact hf (h.lines g)
    · exact h.lines k, h.tick⟩

/-! ### The changes of a timer (R102, R109 to R114) -/

theorem Timer.step_source (x : Timer) : x.step.source = x.source := by
  unfold Timer.step
  split <;> rfl

theorem Timer.step_mode (x : Timer) : x.step.mode = x.mode := by
  unfold Timer.step
  split <;> rfl

section
variable {c : GroupCfg} {x : Timer}

theorem TimerFits.step (h : TimerFits c x) : TimerFits c x.step := by
  refine ⟨h.1.step, ?_⟩
  rw [Timer.step_source, Timer.step_mode]
  exact h.2

theorem TimerFits.preset (h : TimerFits c x) : TimerFits c x.preset := by
  obtain ⟨⟨hperiod, hnext, -⟩, hpair⟩ := h
  refine ⟨Timer.preset_sound hperiod hnext, ?_⟩
  rw [Timer.preset_eq]
  exact hpair

/-- A *prescale count* within its range fits, whether the timer runs or not. -/
theorem TimerFits.prescaled {n : Nat} (h : TimerFits c x) (hn : n < x.source.scale) (running : Bool) :
    TimerFits c { x with prescale := n, running := running } := by
  obtain ⟨hsound, hpair⟩ := h
  rw [timerSound_iff] at hsound
  obtain ⟨hperiod, hnext, hle, hup, hdown, hrise, hfall, -⟩ := hsound
  exact ⟨(timerSound_iff _).mpr ⟨hperiod, hnext, hle, hup, hdown, hrise, hfall, hn⟩, hpair⟩

theorem TimerFits.softReset (h : TimerFits c x) : TimerFits c x.softReset := by
  refine ⟨h.1.softReset, ?_⟩
  rw [Timer.softReset, Timer.preset_eq]
  exact h.2

/-- A PUT of a stopped timer takes the source and the mode that R112 has checked (R113). -/
theorem TimerFits.putStopped {y : TimerCfg} (h : TimerSound x) (hy : y.period ≠ 0)
    (hfree : pairingConflict c.sources y.source y.mode = false) : TimerFits c (x.putStopped y) := by
  refine ⟨h.putStopped hy, ?_⟩
  unfold Timer.putStopped
  dsimp only
  split
  · rw [Timer.preset_eq]
    exact hfree
  · exact hfree

theorem TimerFits.putRunning {y : TimerCfg} (h : TimerFits c x) (hy : y.period ≠ 0) : TimerFits c (x.putRunning y) :=
  ⟨h.1.putRunning hy, h.2⟩

end

/-! ### Time (R100 to R107, R119, R120) -/

theorem countEvent_kept (t : Fin 4) (s : State) : ClockKept s (countEvent t s) := by
  have steps : ClockKept s (s.modTimer t Timer.step) := fun h => h.modTimer (h.timers t).step
  unfold countEvent
  repeat' split
  · exact steps.trans (boundary_clock t _).kept
  · exact steps
  · exact .refl s

/-- The *prescale count* starts again, as at every count event (R102). -/
theorem prescaleZero_kept (t : Fin 4) (s : State) : ClockKept s (s.modTimer t fun x => { x with prescale := 0 }) :=
  fun h => h.modTimer ((h.timers t).prescaled (s.timer t).source.scale_pos _)

/-- Each tick counts within the prescaler's range or starts it again (R102). -/
theorem tickTimer_kept (t : Fin 4) (s : State) : ClockKept s (tickTimer t s) := by
  unfold tickTimer
  split
  · split
    · exact .refl s
    next k hsource =>
      split
      · exact (prescaleZero_kept t s).trans (countEvent_kept t _)
      next hbelow =>
        refine fun h => h.modTimer ((h.timers t).prescaled ?_ _)
        rw [hsource]
        exact Nat.lt_of_not_le hbelow
  · exact .refl s

theorem tickHold_clock (s : State) : ClockFrame s (tickHold s) := by
  unfold tickHold
  repeat' split
  · exact expireHold_clock s
  · exact setHead_clock _ _ s
  all_goals exact .refl s

theorem tickSink_kept (s : State) (k : TickSink) : ClockKept s (tickSink s k) := by
  cases k with
  | timer t => exact tickTimer_kept t s
  | hold => exact (tickHold_clock s).kept
  | line g => exact modLine_kept g .onTick s

/-- A tick begins the next period under the divisor last set (R100, R173). -/
theorem serviceTick_kept (order : List TickSink) (s : State) : ClockKept s (serviceTick order s) := by
  unfold serviceTick
  split
  · exact .refl s
  · refine ClockKept.trans (t := { s with tick := { s.tick with inForce := s.tick.divisor, count := 0 } })
      (fun h => ⟨h.timers, h.lines, ?_⟩) (.foldl tickSink_kept _ _)
    obtain ⟨hone, hmax, -⟩ := h.tick
    exact ⟨hone, hmax, hone, hmax, hone⟩

theorem refclkEdge_kept (s : State) : ClockKept s (refclkEdge s) := by
  unfold refclkEdge
  repeat' split
  · exact .refl s
  next hbefore =>
    refine fun h => ⟨h.timers, h.lines, ?_⟩
    obtain ⟨hone, hmax, hone', hmax', -⟩ := h.tick
    exact ⟨hone, hmax, hone', hmax', hbefore⟩
  · exact ClockKept.trans (t := { s with freeIndex := s.freeIndex + 1 }) (.of_view rfl) (serviceTick_kept _ _)

theorem execTimerStep_kept {i : Fin 4} {s t : State} (h : execTimerStep i s = .next t) : ClockKept s t := by
  unfold execTimerStep at h
  cases h
  split
  · exact (prescaleZero_kept i s).trans (countEvent_kept i _)
  · exact .refl s

theorem syncActs_kept (t : Fin 4) (level : Bool) (s : State) : ClockKept s (syncActs t level s) := by
  have counts : ClockKept s (if countsSync (s.timer t) level then countEvent t s else s) := by
    split
    · exact countEvent_kept t s
    · exact .refl s
  unfold syncActs
  dsimp only
  split
  · exact counts.trans (boundary_clock t _).kept
  · exact counts

theorem syncSettles_kept (t : Fin 4) (level : Bool) (s : State) : ClockKept s (syncSettles t level s) := by
  unfold syncSettles
  repeat' split
  any_goals exact .of_view rfl
  exact ClockKept.trans (t := { s with syncLine := s.syncLine.set t level, syncRef := s.syncRef.set t level })
    (.of_view rfl) (syncActs_kept t level _)

theorem choldSet_clock (asserted : Bool) (s : State) : ClockFrame s (choldSet asserted s) := by
  have set : ClockFrame s { s with chold := asserted } := .of_view rfl
  unfold choldSet
  split
  · exact set.trans (testStart_clock _)
  · exact set

/-! ### Resets (R100, R118, R151, R158) -/

theorem hardReset_kept (s : State) : ClockKept s (hardReset s) := fun _ =>
  ⟨((clockLaw_iff _).mpr ⟨reset_timers, reset_pairing, reset_lines, reset_tick⟩).timers, reset_lines, reset_tick⟩

theorem releaseReset_clock (s : State) : ClockFrame s (releaseReset s) := by
  unfold releaseReset
  split <;> exact .of_view rfl

theorem softReset_kept (s : State) : ClockKept s (softReset s) := by
  refine fun h => ⟨fun t => ?_, fun g => ?_, h.tick⟩
  · have hgroup : (softReset s).group t = GroupRec.fresh (s.group t).cfg := Four.get_map _ _ t
    have htimer : (softReset s).timer t = (s.timer t).softReset := Four.get_map _ _ t
    rw [hgroup, htimer]
    exact (h.timers t).softReset
  · have hline : (softReset s).lines.get g = (s.lines.get g).softReset := Four.get_map _ _ g
    rw [hline]
    exact (h.lines g).softReset

end Sys2Proof.Machine

namespace Sys2Proof.Machine

/-! ## Requests that keep the law of the clocked blocks -/

theorem ite_kept {c : Prop} [Decidable c] {s : State} {x y : Taken} (hx : ClockKept s x.state)
    (hy : ClockKept s y.state) : ClockKept s (if c then x else y).state := by
  split
  · exact hx
  · exact hy

/-- A divisor out of its range is refused (R173). -/
theorem putDevice_kept (v : DeviceRaw) (s : State) : ClockKept s (putDevice v s).state := by
  unfold putDevice
  split
  · exact .refl s
  next hv =>
    simp only [bitVec_eq_zero_iff, not_or] at hv
    obtain ⟨hzero, hmax⟩ := hv
    refine fun h => ⟨h.timers, h.lines, ?_⟩
    obtain ⟨-, -, hrest⟩ := h.tick
    exact ⟨Nat.pos_of_ne_zero hzero, Nat.le_of_not_lt hmax, hrest⟩

theorem putWindow_clock (n : Fin 8) (v : WindowRaw) (s : State) : ClockFrame s (putWindow n v s).state := by
  unfold putWindow
  repeat' split
  all_goals exact .of_view rfl

/-- A group's seal sources are checked against its timer (R14, R112). -/
theorem putGroupCfg_kept (g : Fin 4) (v : GroupCfgRaw) (s : State) : ClockKept s (putGroupCfg g v s).state := by
  unfold putGroupCfg
  repeat' split
  any_goals exact .refl s
  next c _ _ hfree =>
    refine fun h => ⟨fun t => ?_, h.lines, h.tick⟩
    change TimerFits ((s.modGroup g fun x => { x with cfg := c }).group t).cfg (s.timer t)
    rw [State.group_modGroup]
    split
    next ht =>
      subst ht
      exact ⟨(h.timers t).1, Bool.eq_false_iff.mpr hfree⟩
    next => exact h.timers t

theorem timerCfgOfRaw_period {v : TimerCfgRaw} {c : TimerCfg} (h : timerCfgOfRaw v = some c) : c.period ≠ 0 := by
  unfold timerCfgOfRaw at h
  split at h
  · cases h
  next hv =>
    split at h
    · cases h
      exact hv
    · cases h

/-- A timer's source and mode are checked against its group's seal sources (R112). -/
theorem putTimerCfg_kept (t : Fin 4) (v : TimerCfgRaw) (s : State) : ClockKept s (putTimerCfg t v s).state := by
  unfold putTimerCfg
  split
  · exact .refl s
  next c hraw =>
    have hperiod := timerCfgOfRaw_period hraw
    repeat' split
    any_goals exact .refl s
    next => exact fun h => h.modTimer ((h.timers t).putRunning hperiod)
    next hfree _ => exact fun h => h.modTimer (.putStopped (h.timers t).1 hperiod (Bool.eq_false_iff.mpr hfree))

theorem putMonCfg_clock (m : Fin 4) (v : MonCfgRaw) (s : State) : ClockFrame s (putMonCfg m v s).state := by
  unfold putMonCfg
  split <;> exact .of_view rfl

/-- A pulse width is 1 to 255 (R157). -/
theorem putCmtCfg_kept (g : Fin 4) (v : CmtCfgRaw) (s : State) : ClockKept s (putCmtCfg g v s).state := by
  unfold putCmtCfg
  repeat' split
  any_goals exact .refl s
  next m p _ _ hw =>
    rw [bitVec_eq_zero_iff] at hw
    exact modLine_kept g (.configure m p (Nat.pos_of_ne_zero hw) (Nat.le_of_lt_succ v.width.isLt)) s

theorem readEffect_clock (o : Obj) (s : State) : ClockFrame s (readEffect o s) := by
  unfold readEffect
  split <;> exact .of_view rfl

theorem enableAction_clock (g : Fin 4) (s : State) : ClockFrame s (enableAction g s).state := by
  have enables : ClockFrame s (s.modGroup g GroupRec.enabled) := .of_record rfl rfl rfl (fun _ => rfl) rfl
  unfold enableAction
  repeat' split
  any_goals exact .refl s
  exact (enables.trans (reexamineHost_clock g _)).trans (reexamineConsumer_clock g _)

theorem disableAction_clock (g : Fin 4) (s : State) : ClockFrame s (disableAction g s).state := by
  unfold disableAction
  split
  any_goals exact disableGroup_clock g s
  all_goals exact .refl s

theorem sealAction_clock (g : Fin 4) (s : State) : ClockFrame s (sealAction g s).state := by
  unfold sealAction
  repeat' split
  any_goals exact sealGroup_clock g s
  all_goals exact .refl s

theorem discardAction_clock (g : Fin 4) (s : State) : ClockFrame s (discardAction g s).state := by
  have discards : ClockFrame s (discardOpen g s) := .of_record rfl rfl (discardOpen_groups g s) (fun _ => rfl) rfl
  unfold discardAction
  split
  any_goals exact discards.trans (retryAdmission_clock _)
  all_goals exact .refl s

theorem bypassAction_clock (arg : Byte) (s : State) : ClockFrame s (bypassAction arg s).state := by
  unfold bypassAction
  repeat' split
  any_goals exact .of_view rfl
  exact ClockFrame.trans (t := { s with mode := .leaving }) (.of_view rfl) (.foldl windDown_clock _ _)

theorem clearFault_clock (g : Fin 4) (s : State) : ClockFrame s (s.modGroup g GroupRec.clearFault) :=
  .of_record rfl rfl rfl (fun _ => rfl) rfl

/-- TIMER_START lets the timer run from a *prescale count* of 0 (R109). -/
theorem timerStartAction_kept (t : Fin 4) (s : State) : ClockKept s (timerStartAction t s).state :=
  ite_kept (.refl s) fun h => h.modTimer ((h.timers t).prescaled (s.timer t).source.scale_pos true)

/-- TIMER_STOP keeps the *prescale count* (R110). -/
theorem timerStopAction_kept (t : Fin 4) (s : State) : ClockKept s (timerStopAction t s).state :=
  ite_kept (fun h => h.modTimer ((h.timers t).prescaled (h.timers t).1.prescale_lt false)) (.refl s)

theorem setCmtAction_kept (arg : Byte) (s : State) : ClockKept s (setCmtAction arg s).state := by
  unfold setCmtAction
  split
  · exact .refl s
  next g level _ => exact modLine_kept g (.setSoftware level) s

theorem withIndex_kept {f : Fin 4 → State → Taken} (hf : ∀ g s, ClockKept s (f g s).state) (arg : Byte) (s : State) :
    ClockKept s (withIndex arg f s).state := by
  unfold withIndex
  split
  · exact .refl s
  · exact hf _ s

/-- Every request keeps the law once its CRC byte is found correct (R167). -/
theorem requestOp_kept (c : Instr) (s : State) : ClockKept s (requestOp c s).state := by
  cases c with
  | get o crc => exact (readEffect_clock o s).kept
  | getCapture m crc => exact (readEffect_clock (.capture m) s).kept
  | putDevice v crc => exact putDevice_kept v s
  | putWindow n v crc => exact (putWindow_clock n v s).kept
  | putGroupCfg g v crc => exact putGroupCfg_kept g v s
  | putTimerCfg t v crc => exact putTimerCfg_kept t v s
  | putMonCfg m v crc => exact (putMonCfg_clock m v s).kept
  | putCmtCfg g v crc => exact putCmtCfg_kept g v s
  | activate arg crc => exact ite_kept (.refl s) (ite_kept (.refl s) (.of_view rfl))
  | bypass arg crc => exact (bypassAction_clock arg s).kept
  | softReset arg crc => exact ite_kept (.refl s) (softReset_kept s)
  | enableGroup arg crc => exact withIndex_kept (fun g s => (enableAction_clock g s).kept) arg s
  | disableGroup arg crc => exact withIndex_kept (fun g s => (disableAction_clock g s).kept) arg s
  | sealGroup arg crc => exact withIndex_kept (fun g s => (sealAction_clock g s).kept) arg s
  | discard arg crc => exact withIndex_kept (fun g s => (discardAction_clock g s).kept) arg s
  | clearFault arg crc => exact withIndex_kept (fun g s => (clearFault_clock g s).kept) arg s
  | timerStart arg crc => exact withIndex_kept timerStartAction_kept arg s
  | timerStop arg crc => exact withIndex_kept timerStopAction_kept arg s
  | timerPreset arg crc => exact withIndex_kept (fun t _ h => h.modTimer (h.timers t).preset) arg s
  | setCmt arg crc => exact setCmtAction_kept arg s
  | _ => exact .of_view rfl

theorem takeRequest_kept (c : Instr) (body : List Byte) (crc : Byte) (s : State) :
    ClockKept s (takeRequest body crc (requestOp c) s) := by
  unfold takeRequest
  split
  · exact (requestOp_kept c s).trans (.of_view rfl)
  · exact .of_view rfl

/-- A byte clocked in keeps the law, also when it completes a request (R164, R165). -/
theorem clockByte_kept (b : Byte) (s : State) : ClockKept s (clockByte b s) := by
  have take : ∀ bytes, ClockKept s (takeBytes bytes s) := by
    intro bytes
    unfold takeBytes
    split
    next c _ => exact takeRequest_kept c _ _ s
    next => exact .refl s
  unfold clockByte receiveRequestByte
  repeat' split
  any_goals exact take _
  all_goals exact .of_view rfl

theorem startFrame_clock (s : State) : ClockFrame s (startFrame s) := by
  unfold startFrame
  repeat' split
  all_goals exact .of_view rfl

theorem endFrame_clock (s : State) : ClockFrame s (endFrame s) := by
  unfold endFrame
  split
  all_goals exact .of_view rfl

theorem exec_request_kept {c : Instr} {body : List Byte} {s t : State} (hb : c.requestBody = some body)
    (h : exec c s = .next t) : ClockKept s t := by
  rcases exec_request hb s with he | he <;> rw [he] at h <;> cases h
  · exact .refl s
  · unfold requestArrives
    split
    · exact takeRequest_kept c body _ s
    · exact .refl s

/-! ## Every command -/

/-- Every command keeps the law of the clocked blocks. -/
theorem exec_clockKept {c : Instr} {s t : State} (h : exec c s = .next t) : ClockKept s t := by
  cases c with
  | powerOn => cases h; exact hardReset_kept s
  | rstnAssert => cases h; exact hardReset_kept s
  | rstnRelease => cases h; exact (releaseReset_clock s).kept
  | requestAccept p r => cases h; exact (arrive_clock p r s).kept
  | headProcessing p => cases h; exact (processHead_clock p s).kept
  | memoryGrant => cases h; exact (grant_clock s).kept
  | memoryAnswer a data => cases h; exact (takeAnswer_clock a data s).kept
  | drainStart => cases h; exact (testStart_clock s).kept
  | responseDelivery p => cases h; exact (deliver_clock p s).kept
  | holdTimerExpiry => cases h; exact (expireHold_clock s).kept
  | serviceTick order => cases h; exact serviceTick_kept order s
  | timerStep i => exact execTimerStep_kept h
  | pulseEnd g => cases h; exact modLine_kept g .endPulse s
  | syncTransition i level => cases h; exact syncSettles_kept i level s
  | choldChange asserted => cases h; exact (choldSet_clock asserted s).kept
  | frameStart => cases h; exact (startFrame_clock s).kept
  | frameEnd => cases h; exact (endFrame_clock s).kept
  | requestByteReceived b => cases h; exact clockByte_kept b s
  | _ => exact exec_request_kept rfl h

/-- Settles O54: a step moves the clocked blocks by steps, presets, ticks and PUTs that keep each within its bounds. -/
theorem stepsKeepTheClockedBlocks : Obligations.StepsKeepTheClockedBlocks := fun s t hs h =>
  (clockLaw_iff t).mp <| step_of_exec (P := ClockLaw) (fun s l => ClockKept.of_view (t := { s with pending := l }) rfl)
    refclkEdge_kept (fun hs h => exec_clockKept h hs) ((clockLaw_iff s).mpr hs) h

end Sys2Proof.Machine

namespace Sys2Proof.Machine

/-! ## TIMER_STEP of a RUNNING timer (R102 to R106, R108, R115) -/

section
variable {x : Timer} {m : Move}

/-- What a step emits, by its move (R106, R107). -/
theorem Timer.emits_of_move (h : x.move = m) :
    x.emits = ⟨m.wrap, m.peak, m.counter == x.matchAt && !(x.mode == .down && m.wrap)⟩ := by
  subst h
  rfl

/-- A step that is no reload of DOWN mode emits MATCH at the match in force (R106). -/
theorem Timer.emits_matching (h : x.move = m) (hno : x.mode = .down → m.wrap = false) :
    x.emits = ⟨m.wrap, m.peak, decide (m.counter = x.matchAt)⟩ := by
  have hload : (!(x.mode == .down && m.wrap)) = true := by
    cases hm : x.mode
    case down => simp [hno hm]
    all_goals rfl
  rw [Timer.emits_of_move h, hload, Bool.and_true, Bool.beq_eq_decide_eq]

/-- A reload of DOWN mode emits WRAP alone (R104, R106). -/
theorem Timer.emits_reload (hm : x.mode = .down) (h : x.counter = 0) : x.emits = ⟨true, false, false⟩ := by
  rw [Timer.emits_of_move (Timer.move_down_wraps hm h), hm]
  simp

/-- A step that emits no chosen seal source changes the timer alone, and leaves the *prescale count* at 0 (R102). -/
theorem exec_timerStep_quiet {s : State} {t : Fin 4} (hx : s.timer t = x) (hr : x.running = true)
    (hq : (s.group t).cfg.sources.chosenBy x.emits = false) :
    exec (.timerStep t) s = .next { s with timers := s.timers.set t { x.step with prescale := 0 } } := by
  subst hx
  have h := execTimerStep_spec t s hr
  rw [if_neg (by simp [hq]), Timer.step_prescale] at h
  exact h

theorem exec_timerStep_moves {s : State} {t : Fin 4} (hx : s.timer t = x) (hr : x.running = true)
    (h : x.move = m) (hw : m.wrap = false) (hq : (s.group t).cfg.sources.chosenBy x.emits = false) :
    exec (.timerStep t) s = .next { s with
      timers := s.timers.set t { x with counter := m.counter, direction := m.direction, prescale := 0 } } := by
  rw [exec_timerStep_quiet hx hr hq, Timer.step_moves h hw]

theorem exec_timerStep_wraps {s : State} {t : Fin 4} (hx : s.timer t = x) (hr : x.running = true)
    (h : x.move = m) (hw : m.wrap = true) (hq : (s.group t).cfg.sources.chosenBy x.emits = false) :
    exec (.timerStep t) s = .next { s with timers := s.timers.set t { x with
      counter := if x.mode = .down then x.loadedPeriod else m.counter
      direction := m.direction, prescale := 0, running := !x.oneShot
      period := x.loadedPeriod, matchAt := x.matchNext.getD x.matchAt, periodNext := none, matchNext := none } } := by
  rw [exec_timerStep_quiet hx hr hq, Timer.step_wraps h hw]

end

/-! ## Runs of steps from a start value (R103 to R105) -/

/-- The timer with its counter at `n`, counting in direction `d`. -/
def Timer.placed (x : Timer) (n : Nat) (d : Direction) : Timer :=
  { x with counter := BitVec.ofNat 16 n, direction := d }

section
variable {x : Timer} {n : Nat} {d : Direction}

theorem Timer.placed_self (x : Timer) : x.placed x.counter.toNat x.direction = x := by
  unfold Timer.placed
  rw [BitVec.ofNat_toNat, BitVec.setWidth_eq]

theorem Timer.placed_counter (h : n ≤ x.period.toNat) : (x.placed n d).counter.toNat = n :=
  (BitVec.toNat_ofNat n 16).trans (Nat.mod_eq_of_lt (h.trans_lt x.period.isLt))

theorem Timer.placed_counter_eq_iff {k : Nat} (h : n ≤ x.period.toNat) (hk : k ≤ x.period.toNat) :
    (x.placed n d).counter = BitVec.ofNat 16 k ↔ n = k := by
  rw [BitVec.toNat_inj.symm, Timer.placed_counter h, BitVec.toNat_ofNat, Nat.mod_eq_of_lt (hk.trans_lt x.period.isLt)]

theorem Timer.placed_counter_eq_period (h : n ≤ x.period.toNat) :
    (x.placed n d).counter = x.period ↔ n = x.period.toNat := by
  rw [BitVec.toNat_inj.symm, Timer.placed_counter h]

theorem ofNat_succ (n : Nat) : BitVec.ofNat 16 n + 1 = BitVec.ofNat 16 (n + 1) := (BitVec.ofNat_add n 1).symm

theorem ofNat_pred (h : 0 < n) : BitVec.ofNat 16 n - 1 = BitVec.ofNat 16 (n - 1) := by
  obtain ⟨k, rfl⟩ := Nat.exists_eq_succ_of_ne_zero h.ne'
  rw [Nat.succ_sub_one, ← ofNat_succ, BitVec.add_sub_cancel]

/-! ### UP mode (R103) -/

theorem Timer.placed_move_up (hm : x.mode = .up) (h : n < x.period.toNat) :
    (x.placed n d).move = ⟨BitVec.ofNat 16 (n + 1), .up, false, false⟩ := by
  have hne : (x.placed n d).counter ≠ x.period := fun he => h.ne ((Timer.placed_counter_eq_period h.le).mp he)
  rw [← ofNat_succ]
  exact Timer.move_up hm hne

theorem Timer.placed_move_top (hm : x.mode = .up) : (x.placed x.period.toNat d).move = ⟨0, .up, true, false⟩ :=
  Timer.move_up_wraps hm ((Timer.placed_counter_eq_period le_rfl).mpr rfl)

/-- From 0 an UP timer counts n in n steps, up to P (R103). -/
theorem Timer.run_up (hm : x.mode = .up) (h0 : x.counter = 0) (hn : n ≤ x.period.toNat) :
    Timer.step^[n] x = x.placed n (if n = 0 then x.direction else .up) := by
  induction n with
  | zero =>
    have hself := x.placed_self
    rw [h0] at hself
    exact hself.symm
  | succ n ih =>
    rw [Function.iterate_succ_apply', ih (Nat.le_of_succ_le hn), Timer.step_moves (Timer.placed_move_up hm hn) rfl,
      if_neg n.succ_ne_zero]
    rfl

/-! ### DOWN mode (R104) -/

theorem Timer.placed_move_down (hm : x.mode = .down) (h0 : 0 < n) (h : n ≤ x.period.toNat) :
    (x.placed n d).move = ⟨BitVec.ofNat 16 (n - 1), .down, false, false⟩ := by
  have hne : (x.placed n d).counter ≠ 0 := fun he =>
    h0.ne' ((Timer.placed_counter_eq_iff h (Nat.zero_le _)).mp he)
  rw [← ofNat_pred h0]
  exact Timer.move_down hm hne

theorem Timer.placed_move_bottom (hm : x.mode = .down) : (x.placed 0 d).move = ⟨x.period, .down, true, false⟩ :=
  Timer.move_down_wraps hm rfl

/-- From P a DOWN timer counts P - n in n steps, down to 0 (R104). -/
theorem Timer.run_down (hm : x.mode = .down) (hp : x.counter = x.period) (hn : n ≤ x.period.toNat) :
    Timer.step^[n] x = x.placed (x.period.toNat - n) (if n = 0 then x.direction else .down) := by
  induction n with
  | zero =>
    have hself := x.placed_self
    rw [hp] at hself
    exact hself.symm
  | succ n ih =>
    rw [Function.iterate_succ_apply', ih (Nat.le_of_succ_le hn),
      Timer.step_moves (Timer.placed_move_down hm (Nat.sub_pos_of_lt hn) (Nat.sub_le _ _)) rfl, if_neg n.succ_ne_zero,
      ← Nat.sub_sub]
    rfl

/-! ### UPDOWN mode (R105) -/

theorem Timer.placed_move_rising (hm : x.mode = .upDown) (h : n < x.period.toNat) :
    (x.placed n .up).move = ⟨BitVec.ofNat 16 (n + 1), if n + 1 < x.period.toNat then .up else .down, false,
      decide (n + 1 = x.period.toNat)⟩ := by
  have htop : BitVec.ofNat 16 n + 1 = x.period ↔ n + 1 = x.period.toNat := by
    rw [ofNat_succ]
    exact Timer.placed_counter_eq_period (d := .up) h
  have hmove := Timer.move_rising (x := x.placed n .up) hm rfl
  refine hmove.trans ?_
  rw [← ofNat_succ]
  simp only [Timer.placed, htop]
  by_cases hn : n + 1 = x.period.toNat
  · simp [hn]
  · simp [hn, Nat.lt_of_le_of_ne h hn]

theorem Timer.placed_move_falling (hm : x.mode = .upDown) (h1 : 1 < n) (h : n ≤ x.period.toNat) :
    (x.placed n .down).move = ⟨BitVec.ofNat 16 (n - 1), .down, false, false⟩ := by
  have hne : (x.placed n .down).counter ≠ 1 := fun he =>
    h1.ne' ((Timer.placed_counter_eq_iff h (h1.le.trans h)).mp he)
  rw [← ofNat_pred (Nat.zero_lt_of_lt h1)]
  exact Timer.move_falling hm rfl hne

theorem Timer.placed_move_landing (hm : x.mode = .upDown) : (x.placed 1 .down).move = ⟨0, .up, true, false⟩ :=
  Timer.move_falling_wraps hm rfl rfl

/-- Where an UPDOWN timer stands after `n` steps from 0: on its way up to P, or down from it. -/
def upDownPlace (p n : Nat) : Nat := if n ≤ p then n else 2 * p - n

/-- From 0 an UPDOWN timer counts up to P and down again, through the whole cycle (R105). -/
theorem Timer.run_upDown (hm : x.mode = .upDown) (h0 : x.counter = 0) (hd : x.direction = .up)
    (hn : n < 2 * x.period.toNat) : Timer.step^[n] x =
      x.placed (upDownPlace x.period.toNat n) (if n < x.period.toNat then .up else .down) := by
  induction n with
  | zero =>
    have hself := x.placed_self
    rw [h0, hd] at hself
    rw [if_pos (by omega), upDownPlace, if_pos (Nat.zero_le _)]
    exact hself.symm
  | succ n ih =>
    rw [Function.iterate_succ_apply', ih (Nat.lt_of_succ_lt hn)]
    unfold upDownPlace
    rcases Nat.lt_or_ge n x.period.toNat with hlt | hge
    · rw [if_pos hlt, if_pos hlt.le, if_pos (Nat.succ_le_of_lt hlt), Timer.step_moves (Timer.placed_move_rising hm hlt) rfl]
      rfl
    · have hplace : (if n ≤ x.period.toNat then n else 2 * x.period.toNat - n) = 2 * x.period.toNat - n := by
        split <;> omega
      rw [hplace, if_neg (by omega), if_neg (by omega), if_neg (by omega), Nat.sub_succ',
        Timer.step_moves (Timer.placed_move_falling hm (by omega) (by omega)) rfl]
      rfl

end

/-- Settles O26: the two moves of UP mode, and the run from 0. -/
theorem timerUpSteps : Obligations.TimerUpSteps := by
  refine ⟨fun s t x hx hr hm => ⟨fun hlt => ?_, fun hc => ?_⟩, fun x hm h0 => ⟨fun n hn => ?_, ?_⟩⟩
  · have hne : x.counter ≠ x.period := fun he => hlt.ne (congrArg BitVec.toNat he)
    have hmove := Timer.move_up hm hne
    exact ⟨Timer.emits_matching hmove fun _ => rfl, exec_timerStep_moves hx hr hmove rfl⟩
  · have hmove := Timer.move_up_wraps hm hc
    refine ⟨Timer.emits_matching hmove (by simp [hm]), fun hq => ?_⟩
    rw [exec_timerStep_wraps hx hr hmove rfl hq, if_neg (by simp [hm])]
    rfl
  · rw [Timer.run_up hm h0 hn]
    refine ⟨Timer.placed_counter hn, rfl, ?_⟩
    rcases Nat.lt_or_eq_of_le hn with hlt | rfl
    · rw [Timer.emits_of_move (Timer.placed_move_up hm hlt), decide_eq_false hlt.ne]
    · rw [Timer.emits_of_move (Timer.placed_move_top hm), decide_eq_true rfl]
  · rw [Function.iterate_succ_apply', Timer.run_up hm h0 le_rfl, Timer.step_wraps (Timer.placed_move_top hm) rfl]
    exact if_neg (by simp [Timer.placed, hm])

/-- Settles O27: the two moves of DOWN mode, and the run from P. -/
theorem timerDownSteps : Obligations.TimerDownSteps := by
  refine ⟨fun s t x hx hr hm => ⟨fun hc => ?_, fun hc => ?_⟩, fun x hm hp => ⟨fun n hn => ?_, ?_⟩⟩
  · have hmove := Timer.move_down hm hc
    exact ⟨Timer.emits_matching hmove fun _ => rfl, exec_timerStep_moves hx hr hmove rfl⟩
  · refine ⟨Timer.emits_reload hm hc, fun hq => ?_⟩
    rw [exec_timerStep_wraps hx hr (Timer.move_down_wraps hm hc) rfl hq, if_pos hm]
    rfl
  · rw [Timer.run_down hm hp hn]
    refine ⟨Timer.placed_counter (Nat.sub_le _ _), rfl, ?_⟩
    rcases Nat.lt_or_eq_of_le hn with hlt | rfl
    · rw [Timer.emits_of_move (Timer.placed_move_down hm (Nat.sub_pos_of_lt hlt) (Nat.sub_le _ _)),
        decide_eq_false hlt.ne]
    · rw [Nat.sub_self, Timer.emits_of_move (Timer.placed_move_bottom hm), decide_eq_true rfl]
  · rw [Function.iterate_succ_apply', Timer.run_down hm hp le_rfl, Nat.sub_self,
      Timer.step_wraps (Timer.placed_move_bottom hm) rfl]
    exact if_pos hm

/-- Settles O28: the moves of UPDOWN mode by *direction*, and the cycle from 0. -/
theorem timerUpDownSteps : Obligations.TimerUpDownSteps := by
  refine ⟨fun s t x hx hr hm => ⟨fun hd => ?_, fun hd hc => ?_, fun hd hc => ?_⟩, fun x hm h0 hd hp n hn => ?_⟩
  · have hmove := Timer.move_rising hm hd
    exact ⟨Timer.emits_matching hmove (by simp [hm]), exec_timerStep_moves hx hr hmove rfl⟩
  · have hmove := Timer.move_falling hm hd hc
    exact ⟨Timer.emits_matching hmove fun _ => rfl, exec_timerStep_moves hx hr hmove rfl⟩
  · have hmove := Timer.move_falling_wraps hm hd hc
    refine ⟨Timer.emits_matching hmove (by simp [hm]), fun hq => ?_⟩
    rw [exec_timerStep_wraps hx hr hmove rfl hq, if_neg (by simp [hm])]
    rfl
  · have hle : upDownPlace x.period.toNat n ≤ x.period.toNat := by unfold upDownPlace; split <;> omega
    rw [Timer.run_upDown hm h0 hd hn]
    refine ⟨Timer.placed_counter hle, ?_⟩
    rcases Nat.lt_or_ge n x.period.toNat with hlt | hge
    · have hplace : upDownPlace x.period.toNat n = n := if_pos hlt.le
      rw [if_pos hlt, hplace, Timer.emits_of_move (Timer.placed_move_rising hm hlt)]
      exact ⟨rfl, (decide_eq_false (by omega)).symm⟩
    · have hplace : upDownPlace x.period.toNat n = 2 * x.period.toNat - n := by unfold upDownPlace; split <;> omega
      have hpeak : decide (n + 1 = x.period.toNat) = false := decide_eq_false (by omega)
      rw [if_neg (by omega), hplace, hpeak]
      by_cases hlast : n + 1 = 2 * x.period.toNat
      · have hone : 2 * x.period.toNat - n = 1 := by omega
        rw [hone, Timer.emits_of_move (Timer.placed_move_landing hm), decide_eq_true hlast]
        exact ⟨rfl, rfl⟩
      · rw [Timer.emits_of_move (Timer.placed_move_falling hm (by omega) (by omega)), decide_eq_false hlast]
        exact ⟨rfl, rfl⟩

end Sys2Proof.Machine

namespace Sys2Proof.Machine

/-! ## One rising edge of REFCLK (R100) -/

/-- On an empty queue a step is one edge of REFCLK. -/
theorem step_refclk {s : State} (h : s.pending = []) : step s = .next (refclkEdge s) := by
  unfold step
  rw [h]

/-- The edge counts, or makes a service tick; RSTn holds it (R100, R139). -/
theorem refclkEdge_spec (s : State) :
    (s.inReset = true → refclkEdge s = s) ∧
    (s.inReset = false → s.tick.count + 1 < s.tick.inForce →
      refclkEdge s = { s with tick := { s.tick with count := s.tick.count + 1 } }) ∧
    (s.inReset = false → s.tick.inForce ≤ s.tick.count + 1 → refclkEdge s =
      serviceTick (Config.tickOrder s.freeIndex) { s with freeIndex := s.freeIndex + 1 }) := by
  refine ⟨fun h => if_pos h, fun h hc => ?_, fun h hc => ?_⟩
  · unfold refclkEdge
    rw [if_neg (by simp [h]), if_pos hc]
  · unfold refclkEdge
    rw [if_neg (by simp [h]), if_neg (Nat.not_lt.mpr hc)]

theorem exec_serviceTick (order : List TickSink) (s : State) :
    exec (.serviceTick order) s = .next (serviceTick order s) := rfl

/-- Settles O2: each clause is one branch of the edge. -/
theorem emptyQueuePassesOneRefclkEdge : Obligations.EmptyQueuePassesOneRefclkEdge := by
  intro s hs
  rw [step_refclk hs]
  obtain ⟨held, counted, ticked⟩ := refclkEdge_spec s
  refine ⟨fun h => by rw [held h], fun h hc => by rw [counted h hc], fun h hc => ⟨Config.tickOrder s.freeIndex, ?_⟩⟩
  rw [ticked h hc, exec_serviceTick]

/-! ## Timer actions (R109, R110, R111) -/

theorem exec_timerStart {s : State} {t : Fin 4} {crc : Byte}
    (h : RequestReady s [0x03, 0x20, BitVec.ofNat 8 t.val] crc) : exec (.timerStart (BitVec.ofNat 8 t.val) crc) s =
      .next (replied (timerStartAction t s).reply.bytes (timerStartAction t s).state) :=
  exec_groupAction (a := .timerStart) rfl rfl rfl h

theorem exec_timerStop {s : State} {t : Fin 4} {crc : Byte}
    (h : RequestReady s [0x03, 0x21, BitVec.ofNat 8 t.val] crc) : exec (.timerStop (BitVec.ofNat 8 t.val) crc) s =
      .next (replied (timerStopAction t s).reply.bytes (timerStopAction t s).state) :=
  exec_groupAction (a := .timerStop) rfl rfl rfl h

theorem exec_timerPreset {s : State} {t : Fin 4} {crc : Byte}
    (h : RequestReady s [0x03, 0x22, BitVec.ofNat 8 t.val] crc) : exec (.timerPreset (BitVec.ofNat 8 t.val) crc) s =
      .next (replied (timerPresetAction t s).reply.bytes (timerPresetAction t s).state) :=
  exec_groupAction (a := .timerPreset) rfl rfl rfl h

theorem State.modTimer_eq (t : Fin 4) (f : Timer → Timer) (s : State) :
    s.modTimer t f = { s with timers := s.timers.set t (f (s.timer t)) } := rfl

/-- Settles O50: each action by its run state, and the preset by what it changes. -/
theorem timerActionsStartStopPreset : Obligations.TimerActionsStartStopPreset := by
  refine ⟨fun s t crc h => ?_, fun s t crc h => ?_, fun s t crc h => ?_⟩
  · rw [exec_timerStart h]
    unfold timerStartAction
    exact ⟨fun hr => by rw [if_pos hr]; rfl, fun hr => by rw [if_neg (by simp [hr])]; rfl⟩
  · rw [exec_timerStop h]
    unfold timerStopAction
    exact ⟨fun hr => by rw [if_neg (by simp [hr])]; rfl, fun hr => by rw [if_pos hr]; rfl⟩
  · rw [exec_timerPreset h, timerPresetAction, State.modTimer_eq, Timer.preset_eq]
    rfl

/-! ## PUT of TIMER_CFG_t (R112 to R114) -/

/-- Step 1 of R112. -/
def BadTimerCfg (v : TimerCfgRaw) : Prop :=
  v.period.toNat = 0 ∨ 2 < v.mode.toNat ∨ (v.source = 0x00 ∧ 15 < v.k.toNat) ∨
    (v.source ≠ 0x00 ∧ v.source ≠ 0x11 ∧ v.source ≠ 0x12 ∧ v.source ≠ 0x13)

/-- The configuration a PUT carries. -/
def rawTimerCfg (v : TimerCfgRaw) : TimerCfg where
  mode := if v.mode.toNat = 0 then .up else if v.mode.toNat = 1 then .down else .upDown
  oneShot := decide (v.oneShot.toNat ≠ 0)
  source := if v.source = 0x00 then .tick (Fin.ofNat 16 v.k.toNat) else if v.source = 0x11 then .sync .rising
    else if v.source = 0x12 then .sync .falling else .sync .both
  period := v.period
  matchAt := v.matchAt

theorem TimerMode.ofByte_none {b : Byte} : TimerMode.ofByte b = none ↔ 2 < b.toNat := by
  revert b; decide

theorem TimerMode.ofByte_some {b : Byte} (h : ¬ 2 < b.toNat) : TimerMode.ofByte b =
    some (if b.toNat = 0 then .up else if b.toNat = 1 then .down else .upDown) := by
  revert b; decide

/-- A source code without a meaning, or a TICK whose k is out of range (R112, Section 10.7.5). -/
theorem CountSource.ofBytes_none {src k : Byte} (h : (src = 0x00 ∧ 15 < k.toNat) ∨
    (src ≠ 0x00 ∧ src ≠ 0x11 ∧ src ≠ 0x12 ∧ src ≠ 0x13)) : CountSource.ofBytes src k = none := by
  unfold CountSource.ofBytes
  rcases h with ⟨hs, hk⟩ | ⟨h0, h1, h2, h3⟩
  · rw [if_pos hs, dif_neg (Nat.not_lt.mpr hk)]
  · rw [if_neg h0, if_neg h1, if_neg h2, if_neg h3]

theorem CountSource.ofBytes_some {src k : Byte} (htick : ¬ (src = 0x00 ∧ 15 < k.toNat))
    (hcode : ¬ (src ≠ 0x00 ∧ src ≠ 0x11 ∧ src ≠ 0x12 ∧ src ≠ 0x13)) : CountSource.ofBytes src k =
      some (if src = 0x00 then .tick (Fin.ofNat 16 k.toNat) else if src = 0x11 then .sync .rising
        else if src = 0x12 then .sync .falling else .sync .both) := by
  unfold CountSource.ofBytes
  by_cases h0 : src = 0x00
  · have hk : k.toNat < 16 := Nat.lt_of_not_le fun hk => htick ⟨h0, hk⟩
    rw [if_pos h0, if_pos h0, dif_pos hk]
    exact congrArg (fun i => some (CountSource.tick i)) (Fin.ext (Nat.mod_eq_of_lt hk).symm)
  · rw [if_neg h0, if_neg h0]
    by_cases h1 : src = 0x11
    · rw [if_pos h1, if_pos h1]
    · rw [if_neg h1, if_neg h1]
      by_cases h2 : src = 0x12
      · rw [if_pos h2, if_pos h2]
      · rw [if_neg h2, if_neg h2, if_pos (by_contra fun h3 => hcode ⟨h0, h1, h2, h3⟩)]

theorem timerCfgOfRaw_bad {v : TimerCfgRaw} (h : BadTimerCfg v) : timerCfgOfRaw v = none := by
  unfold timerCfgOfRaw
  split
  next => rfl
  next hp =>
    rw [bitVec_eq_zero_iff] at hp
    rcases h with h | h | h
    · exact absurd h hp
    · rw [TimerMode.ofByte_none.mpr h]
    · rw [CountSource.ofBytes_none h]
      cases TimerMode.ofByte v.mode <;> rfl

/-- A PUT of a timer configuration that passes step 1 of R112 carries all five fields. -/
theorem timerCfgOfRaw_good {v : TimerCfgRaw} (h : ¬ BadTimerCfg v) : timerCfgOfRaw v = some (rawTimerCfg v) := by
  simp only [BadTimerCfg, not_or] at h
  obtain ⟨hp, hm, htick, hcode⟩ := h
  unfold timerCfgOfRaw
  rw [if_neg (by rwa [bitVec_eq_zero_iff]), TimerMode.ofByte_some hm, CountSource.ofBytes_some htick hcode, yes_eq]
  rfl

theorem exec_putTimerCfg {s : State} {t : Fin 4} {v : TimerCfgRaw} {crc : Byte}
    (h : RequestReady s (0x02 :: BitVec.ofNat 8 (0x30 + t.val) :: v.toBytes) crc) :
    exec (.putTimerCfg t v crc) s = .next (replied (putTimerCfg t v s).reply.bytes (putTimerCfg t v s).state) :=
  exec_ready (c := .putTimerCfg t v crc) rfl rfl h

theorem putTimerCfg_good {s : State} {t : Fin 4} {v : TimerCfgRaw} (h : ¬ BadTimerCfg v) : putTimerCfg t v s =
    if (s.timer t).running = true ∧
        ((rawTimerCfg v).mode ≠ (s.timer t).mode ∨ (rawTimerCfg v).source ≠ (s.timer t).source) then refuse .busy s
    else if pairingConflict (s.group t).cfg.sources (rawTimerCfg v).source (rawTimerCfg v).mode then refuse .badValue s
    else if (s.timer t).running then done (s.modTimer t (Timer.putRunning (rawTimerCfg v)))
    else done (s.modTimer t (Timer.putStopped (rawTimerCfg v))) := by
  simp only [putTimerCfg, timerCfgOfRaw_good h]

/-- The source a PUT carries is a sync input exactly when its code is not that of TICK (Section 10.7.5). -/
theorem rawTimerCfg_source (v : TimerCfgRaw) : (∃ e : Edge, (rawTimerCfg v).source = .sync e) ↔ v.source ≠ 0x00 := by
  unfold rawTimerCfg
  dsimp only
  split
  next h => exact ⟨nofun, fun hn => absurd h hn⟩
  next h =>
    refine ⟨fun _ => h, fun _ => ?_⟩
    split
    · exact ⟨_, rfl⟩
    · split <;> exact ⟨_, rfl⟩

/-- A pending slot after a PUT (R114): empty only where the value in force is put into an empty slot. -/
theorem nextPending_eq (p new : BitVec 16) (slot : Option (BitVec 16)) :
    nextPending p slot new = if new = p ∧ slot = none then none else some new := by
  unfold nextPending
  cases slot <;> by_cases h : new = p <;> simp [h]

/-- A PUT of a stopped timer, field by field (R113; log entry 9 for the *prescale count*). -/
theorem Timer.putStopped_eq (c : TimerCfg) (x : Timer) : x.putStopped c =
    { mode := c.mode, oneShot := c.oneShot, source := c.source, period := c.period, matchAt := c.matchAt
      running := x.running, periodNext := none, matchNext := none
      counter := if c.mode = x.mode ∧ c.period = x.period then x.counter else if c.mode = .down then c.period else 0
      direction := if c.mode = x.mode ∧ c.period = x.period then x.direction
        else if c.mode = .down then .down else .up
      prescale := if c.mode = x.mode ∧ c.period = x.period ∧ c.source = x.source then x.prescale else 0 } := by
  unfold Timer.putStopped
  dsimp only
  split
  next h =>
    have hn : ¬ (c.mode = x.mode ∧ c.period = x.period) := fun ⟨hm, hp⟩ => h.elim (· hm) (· hp)
    have hn' : ¬ (c.mode = x.mode ∧ c.period = x.period ∧ c.source = x.source) := fun ⟨hm, hp, _⟩ => hn ⟨hm, hp⟩
    rw [Timer.preset_eq, if_neg hn, if_neg hn, if_neg hn']
  next h =>
    simp only [ne_eq, not_or, not_not] at h
    simp [h]

/-- Settles O42: each clause is one branch of the PUT. -/
theorem putTimerCfgChecksAndConfigures : Obligations.PutTimerCfgChecksAndConfigures := by
  intro s t v crc x bad busy conflict mode source h hx hbad
  subst hx
  change (bad ↔ BadTimerCfg v) at hbad
  rw [hbad, exec_putTimerCfg h]
  refine ⟨fun hb => ?_, fun hb hmode hsource hbusy hconf => ?_⟩
  · have hput : putTimerCfg t v s = refuse .badValue s := by simp only [putTimerCfg, timerCfgOfRaw_bad hb]
    rw [hput]
    rfl
  · change mode = (rawTimerCfg v).mode at hmode
    change source = (rawTimerCfg v).source at hsource
    subst hmode hsource
    have hconf' : conflict ↔
        pairingConflict (s.group t).cfg.sources (rawTimerCfg v).source (rawTimerCfg v).mode = true := by
      rw [hconf, pairingConflict_iff, rawTimerCfg_source]
    rw [putTimerCfg_good hb, hconf', hbusy]
    refine ⟨fun hy => ?_, fun hy hc => ?_, fun hy hc hr => ?_, fun hy hc hr => ?_⟩
    · rw [if_pos hy]; rfl
    · rw [if_neg hy, if_pos hc]; rfl
    · rw [if_neg hy, if_neg hc, if_pos hr, State.modTimer_eq, Timer.putRunning, nextPending_eq, nextPending_eq]
      rfl
    · rw [if_neg hy, if_neg hc, if_neg (by simp [hr]), State.modTimer_eq, Timer.putStopped_eq, hr]
      rfl

/-! ## A sync input settles (R119, R120) -/

/-- An edge choice takes both transitions, or the one to its level (R102). -/
theorem Edge.takes_iff (e : Edge) (level : Bool) :
    e.takes level = true ↔ e = .both ∨ e = if level then .rising else .falling := by
  cases e <;> cases level <;> simp [Edge.takes]

theorem countsSync_iff (x : Timer) (level : Bool) : countsSync x level = true ↔
    ∃ e : Edge, x.source = .sync e ∧ (e = .both ∨ e = if level then .rising else .falling) := by
  unfold countsSync
  cases x.source with
  | tick k => exact ⟨nofun, nofun⟩
  | sync e => simp [Edge.takes_iff]

theorem exec_syncTransition (t : Fin 4) (level : Bool) (s : State) :
    exec (.syncTransition t level) s = .next (syncSettles t level s) := rfl

/-- No transition: the level is the reference level, or RSTn is asserted (R119). -/
theorem syncSettles_still {t : Fin 4} {level : Bool} {s : State} (h : s.inReset = true ∨ s.syncRef.get t = level) :
    syncSettles t level s = { s with syncLine := s.syncLine.set t level } := by
  unfold syncSettles
  split
  · rfl
  next hr => rw [if_pos (h.resolve_left hr)]

theorem syncSettles_acts {t : Fin 4} {level : Bool} {s : State} (hr : s.inReset = false)
    (h : s.syncRef.get t ≠ level) : syncSettles t level s =
      syncActs t level { s with syncLine := s.syncLine.set t level, syncRef := s.syncRef.set t level } := by
  unfold syncSettles
  rw [if_neg (by simp [hr]), if_neg h]

/-- A transition acts: the count event, then the boundary event of a group that SYNC seals (R120). -/
theorem syncActs_spec (t : Fin 4) (level : Bool) (s : State) :
    (¬ ((s.timer t).running = true ∧ countsSync (s.timer t) level = true) → syncActs t level s =
      if (s.group t).cfg.sources.sync && (s.group t).cfg.syncEdge.takes level then boundary t s else s) ∧
    (countsSync (s.timer t) level = true →
      ((s.group t).cfg.sources.sync && (s.group t).cfg.syncEdge.takes level) = false →
      syncActs t level s = countEvent t s) := by
  refine ⟨fun h => ?_, fun h hb => ?_⟩
  · have idle : (if countsSync (s.timer t) level then countEvent t s else s) = s := by
      split
      next hc => exact (countEvent_spec t s).1 (Bool.eq_false_iff.mpr fun hr => h ⟨hr, hc⟩)
      next => rfl
    unfold syncActs
    rw [idle]
  · unfold syncActs
    rw [if_neg (by simp [hb]), if_pos h]

/-- Settles O30: a transition is a count event, a boundary event or neither. -/
theorem syncTransitionCountsOrBounds : Obligations.SyncTransitionCountsOrBounds := by
  intro s s0 t level counts bounds
  rw [exec_syncTransition]
  refine ⟨fun h => by rw [syncSettles_still h], fun hr hne hs0 hcounts hbounds => ?_, boundaryGives_total t s⟩
  subst hs0
  rw [syncSettles_acts hr hne]
  rw [← countsSync_iff] at hcounts
  rw [← Edge.takes_iff, ← Bool.and_eq_true] at hbounds
  rw [hcounts, hbounds]
  obtain ⟨idle, count⟩ := syncActs_spec t level { s with
    syncLine := s.syncLine.set t level, syncRef := s.syncRef.set t level }
  obtain ⟨-, quiet, sounds⟩ := countEvent_spec t { s with
    syncLine := s.syncLine.set t level, syncRef := s.syncRef.set t level }
  refine ⟨fun hc hb => ?_, fun hc hb u hu => ?_, fun hc hb hq => ?_, fun hc hb hq u hu => ?_⟩
  · rw [idle hc]
    exact congrArg Host.Outcome.next (if_neg hb)
  · rw [idle hc]
    exact congrArg Host.Outcome.next ((if_pos hb).trans (boundary_of hu))
  · rw [count hc.2 (Bool.eq_false_iff.mpr hb), quiet hc.1 hq]
    rfl
  · rw [count hc.2 (Bool.eq_false_iff.mpr hb), sounds hc.1 hq]
    exact congrArg Host.Outcome.next (boundary_of hu)

end Sys2Proof.Machine

namespace Sys2Proof.Machine

/-! ## What one receiver of a service tick does (R30, R50 to R52, R102, R154) -/

/-- A RUNNING tick-driven prescaler rises by one, or steps its timer and starts again (R102). -/
def Timer.ticked (x : Timer) : Timer :=
  match x.running, x.source with
  | true, .tick k =>
    if 2 ^ k.val ≤ x.prescale + 1 then Timer.step { x with prescale := 0 } else { x with prescale := x.prescale + 1 }
  | _, _ => x

/-- Whether a tick steps the timer (R102). -/
def Timer.stepsAtTick (x : Timer) : Bool :=
  match x.running, x.source with
  | true, .tick k => decide (2 ^ k.val ≤ x.prescale + 1)
  | _, _ => false

/-- Whether a tick brings group `t` a boundary event: its timer steps and emits a chosen seal source (R49, R107). -/
def State.tickBounds (s : State) (t : Fin 4) : Bool :=
  (s.timer t).stepsAtTick && (s.group t).cfg.sources.chosenBy (s.timer t).emits

theorem State.modTimer_self {s : State} {t : Fin 4} {f : Timer → Timer} (h : f (s.timer t) = s.timer t) :
    s.modTimer t f = s := by
  rw [State.modTimer_eq, h]
  exact congrArg (fun x => ({ s with timers := x } : State)) (Four.set_get_self _ _)

/-- The tick at a timer: its own step, and the boundary event that the step may bring (R49, R102). -/
theorem tickTimer_eq (t : Fin 4) (s : State) : tickTimer t s =
    if s.tickBounds t then boundary t (s.modTimer t Timer.ticked) else s.modTimer t Timer.ticked := by
  by_cases hr : (s.timer t).running = true
  · cases hs : (s.timer t).source with
    | sync e =>
      have hsteps : s.tickBounds t = false := by simp [State.tickBounds, Timer.stepsAtTick, hr, hs]
      have hself : (s.timer t).ticked = s.timer t := by simp [Timer.ticked, hr, hs]
      rw [hsteps, State.modTimer_self hself, tickTimer, if_pos hr, hs]
      rfl
    | tick k =>
      unfold tickTimer
      rw [if_pos hr, hs]
      dsimp only
      by_cases hk : 2 ^ k.val ≤ (s.timer t).prescale + 1
      · have hsteps : s.tickBounds t = (s.group t).cfg.sources.chosenBy (s.timer t).emits := by
          simp [State.tickBounds, Timer.stepsAtTick, hr, hs, hk]
        have hticked : (s.timer t).ticked = Timer.step { s.timer t with prescale := 0 } := by
          simp [Timer.ticked, hr, hs, hk]
        rw [if_pos hk, countEvent_after t s (fun x => { x with prescale := 0 }) hr rfl, hsteps, State.modTimer_eq, hticked]
      · have hsteps : s.tickBounds t = false := by simp [State.tickBounds, Timer.stepsAtTick, hr, hs, hk]
        have hticked : (s.timer t).ticked = { s.timer t with prescale := (s.timer t).prescale + 1 } := by
          simp [Timer.ticked, hr, hs, hk]
        rw [if_neg hk, hsteps, State.modTimer_eq, State.modTimer_eq, hticked]
        rfl
  · rw [Bool.not_eq_true] at hr
    have hsteps : s.tickBounds t = false := by simp [State.tickBounds, Timer.stepsAtTick, hr]
    have hself : (s.timer t).ticked = s.timer t := by simp [Timer.ticked, hr]
    rw [hsteps, State.modTimer_self hself, tickTimer, hr]
    rfl

/-- The Host Port once the hold timer has taken its tick (R30, R32). -/
def State.tickedHp (s : State) : Port :=
  match s.held with
  | none => s.hp
  | some h =>
    match h.timer with
    | none => s.hp
    | some k =>
      s.hp.setHead (if k ≤ 1 then .answered ⟨.full h.cls.group, []⟩ else .head h.cls (.held h.cause (some (k - 1))))

theorem State.tickedHp_none {s : State} (h : ∀ w, s.held = some w → w.timer = none) : s.tickedHp = s.hp := by
  unfold State.tickedHp
  cases hh : s.held with
  | none => rfl
  | some w => simp only [h w hh]

theorem State.tickedHp_some {s : State} {w : HeldWrite} {k : Nat} (h : s.held = some w) (hk : w.timer = some k) :
    s.tickedHp = s.hp.setHead
      (if k ≤ 1 then .answered ⟨.full w.cls.group, []⟩ else .head w.cls (.held w.cause (some (k - 1)))) := by
  unfold State.tickedHp
  simp only [h, hk]

theorem State.tickedHp_congr {s t : State} (h : t.hp = s.hp) : t.tickedHp = s.tickedHp := by
  unfold State.tickedHp
  rw [State.held_congr (congrArg Port.slots h), h]

theorem tickHold_eq (s : State) : tickHold s = { s with hp := s.tickedHp } := by
  cases hh : s.held with
  | none => rw [State.tickedHp_none (by simp [hh]), tickHold, hh]
  | some w =>
    cases hk : w.timer with
    | none => rw [State.tickedHp_none (by simp [hh, hk]), tickHold, hh]; simp only [hk]
    | some k =>
      rw [State.tickedHp_some hh hk, tickHold, hh]
      simp only [hk]
      split
      next hle => exact (expireHold_spec s).1 w k hh hk hle
      next => rfl

/-! ### A boundary event at the lines and the Host Port -/

/-- What a boundary event can make of its group's line (R47, R50 to R52, R74). -/
def BoundaryLine (f : Line → Line) : Prop := f = id ∨ f = lineSealed ∨ f = lineCompleted ∘ lineSealed

/-- With no start left undone before it, a boundary event moves its group's line alone, and no port: the start test that
its seal brings finds no other group waiting (R47, R48, R63). -/
theorem boundary_line {g : Fin 4} {s : State} (h : NoStartLeft s) :
    ∃ f, BoundaryLine f ∧ (boundary g s).hp = s.hp ∧ (boundary g s).lines = s.lines.modify g f := by
  have still : s.lines = s.lines.modify g id := (Four.set_get_self _ _).symm
  obtain ⟨u, hu⟩ := boundaryGives_total g s
  rw [boundary_of hu]
  cases hu with
  | ignored => exact ⟨id, .inl rfl, rfl, still⟩
  | overrun => exact ⟨id, .inl rfl, rfl, still⟩
  | passes => exact ⟨id, .inl rfl, rfl, still⟩
  | seals hr _ _ ht =>
    cases ht with
    | rests => exact ⟨lineSealed, .inr (.inl rfl), rfl, rfl⟩
    | starts => exact ⟨lineSealed, .inr (.inl rfl), rfl, rfl⟩
    | @completes _ _ k rest he hq hc _ _ hu =>
      have hreq : s.commitReq ++ [g] = k :: rest := hq
      rw [h he hc] at hreq
      cases hreq
      have hstate : ((drained g (startedAt g [] (sealedAt g s))).group g).state = (s.group g).state := by
        simp [State.group, drained, startedAt, sealedAt]
      have hon : completedAt g (startedAt g [] (sealedAt g s)) = drained g (startedAt g [] (sealedAt g s)) :=
        if_neg (by simp [hstate, hr])
      have hend := testStart_of hu
      rw [hon, testStart_none (.inr (.inl rfl))] at hend
      subst hend
      exact ⟨lineCompleted ∘ lineSealed, .inr (.inr rfl), rfl, by simp [drained, startedAt, sealedAt, Four.modify]⟩

/-! ## The receivers that have taken a tick (R100) -/

/-- What a tick has made of a line so far: what its group's boundary event does to it, if one has come, before or after the
tick at the line, if the line has taken it. -/
def LineTaken (event tick : Prop) (x y : Line) : Prop :=
  ∃ f, BoundaryLine f ∧ (¬ event → f = id) ∧ (¬ tick → y = f x) ∧
    (tick → y = f (lineTicked x) ∨ y = lineTicked (f x))

theorem LineTaken.untouched {event tick : Prop} (h : ¬ tick) (x : Line) : LineTaken event tick x x :=
  ⟨id, .inl rfl, fun _ => rfl, fun _ => rfl, fun ht => absurd ht h⟩

theorem LineTaken.congr {event tick event' tick' : Prop} {x y : Line} (he : event' ↔ event) (ht : tick' ↔ tick)
    (h : LineTaken event tick x y) : LineTaken event' tick' x y := by
  rwa [propext he, propext ht]

/-- The boundary event comes. -/
theorem LineTaken.bounds {event event' tick : Prop} {x y : Line} {f : Line → Line} (h : LineTaken event tick x y)
    (hno : ¬ event) (he : event') (hf : BoundaryLine f) : LineTaken event' tick x (f y) := by
  obtain ⟨f', -, hid, hbefore, hafter⟩ := h
  obtain rfl := hid hno
  refine ⟨f, hf, fun hn => absurd he hn, fun hn => congrArg f (hbefore hn), fun ht => .inl (congrArg f ?_)⟩
  exact (hafter ht).elim id id

/-- The line takes its tick. -/
theorem LineTaken.ticks {event tick tick' : Prop} {x y : Line} (h : LineTaken event tick x y) (hno : ¬ tick)
    (ht : tick') : LineTaken event tick' x (lineTicked y) := by
  obtain ⟨f, hf, hid, hbefore, -⟩ := h
  exact ⟨f, hf, hid, fun hn => absurd ht hn, fun _ => .inr (congrArg lineTicked (hbefore hno))⟩

/-- Without a boundary event the line has taken its tick alone. -/
theorem LineTaken.of_quiet {event tick : Prop} {x y : Line} (h : LineTaken event tick x y) (hno : ¬ event) (ht : tick) :
    y = lineTicked x := by
  obtain ⟨f, -, hid, -, hafter⟩ := h
  obtain rfl := hid hno
  exact (hafter ht).elim id id

/-- No start was left undone, or no boundary event comes in the tick. -/
def State.Calm (s : State) : Prop := NoStartLeft s ∨ ∀ i, s.tickBounds i = false

/-- What a tick has made of `s` once the receivers in `taken` have taken it. -/
structure Ticked (s : State) (taken : List TickSink) (t : State) : Prop where
  tick : t.tick = s.tick
  cfg : ∀ g, (t.group g).cfg = (s.group g).cfg
  timers : ∀ i, t.timer i = if .timer i ∈ taken then (s.timer i).ticked else s.timer i
  still : (∀ i, s.tickBounds i = false) → ∃ timers hp lines, t = { s with timers := timers, hp := hp, lines := lines }
  starts : NoStartLeft s → NoStartLeft t
  hp : s.Calm → t.hp = if .hold ∈ taken then s.tickedHp else s.hp
  lines : s.Calm → ∀ g, LineTaken (s.tickBounds g = true ∧ .timer g ∈ taken) (.line g ∈ taken) (s.lines.get g)
    (t.lines.get g)

theorem Ticked.nil (s : State) : Ticked s [] s where
  tick := rfl
  cfg _ := rfl
  timers _ := rfl
  still _ := ⟨s.timers, s.hp, s.lines, rfl⟩
  starts := id
  hp _ := rfl
  lines _ g := .untouched (by simp) _

section
variable {s t : State} {taken : List TickSink}

theorem Ticked.timer_fresh (h : Ticked s taken t) {i : Fin 4} (hi : .timer i ∉ taken) : t.timer i = s.timer i := by
  rw [h.timers, if_neg hi]

/-- A timer that has not taken the tick brings the boundary event that it would have brought at first (R49). -/
theorem Ticked.tickBounds_fresh (h : Ticked s taken t) {i : Fin 4} (hi : .timer i ∉ taken) :
    t.tickBounds i = s.tickBounds i := by
  unfold State.tickBounds
  rw [h.timer_fresh hi, h.cfg]

theorem Ticked.timers_snoc (h : Ticked s taken t) {i : Fin 4} (hi : .timer i ∉ taken) (j : Fin 4) :
    (t.modTimer i Timer.ticked).timer j =
      if .timer j ∈ taken ++ [TickSink.timer i] then (s.timer j).ticked else s.timer j := by
  rw [State.timer_modTimer, h.timer_fresh hi, h.timers]
  by_cases hj : j = i
  · simp [hj]
  · simp [hj]

/-- A timer takes the tick, and no boundary event comes of it. -/
theorem Ticked.timer_quiet (h : Ticked s taken t) {i : Fin 4} (hi : .timer i ∉ taken) (hb : s.tickBounds i = false) :
    Ticked s (taken ++ [.timer i]) (t.modTimer i Timer.ticked) where
  tick := h.tick
  cfg := h.cfg
  timers := h.timers_snoc hi
  still hq := by
    obtain ⟨timers, hp, lines, rfl⟩ := h.still hq
    exact ⟨_, hp, lines, rfl⟩
  starts := h.starts
  hp hc := by simpa using h.hp hc
  lines hc g := by
    refine (h.lines hc g).congr ?_ (by simp)
    by_cases hg : g = i
    · simp [hg, hb]
    · simp [hg]

/-- A timer takes the tick, and its boundary event comes (R49 to R52). -/
theorem Ticked.timer_bounds (h : Ticked s taken t) {i : Fin 4} (hi : .timer i ∉ taken) (hb : s.tickBounds i = true) :
    Ticked s (taken ++ [.timer i]) (boundary i (t.modTimer i Timer.ticked)) := by
  have frame := boundary_clock i (t.modTimer i Timer.ticked)
  have starts : s.Calm → NoStartLeft s := fun hc => hc.resolve_right fun hn => by simp [hn i] at hb
  have line : s.Calm → ∃ f, BoundaryLine f ∧ (boundary i (t.modTimer i Timer.ticked)).hp = t.hp ∧
      (boundary i (t.modTimer i Timer.ticked)).lines = t.lines.modify i f := fun hc =>
    boundary_line (s := t.modTimer i Timer.ticked) (h.starts (starts hc))
  refine ⟨frame.tick.trans h.tick, fun g => (frame.cfg g).trans (h.cfg g), fun j => ?_, fun hq => ?_, fun hn => ?_,
    fun hc => ?_, fun hc g => ?_⟩
  · rw [State.timer_congr frame.timers, h.timers_snoc hi]
  · simp [hq i] at hb
  · exact (boundary_orderly i (t.modTimer i Timer.ticked)).starts (h.starts hn)
  · obtain ⟨f, -, hhp, -⟩ := line hc
    simpa [hhp] using h.hp hc
  · obtain ⟨f, hf, -, hlines⟩ := line hc
    rw [hlines, Four.get_modify]
    split
    next hg =>
      subst hg
      exact ((h.lines hc g).bounds (fun he => hi he.2) ⟨hb, by simp⟩ hf).congr Iff.rfl (by simp)
    next hg => exact (h.lines hc g).congr (by simp [hg]) (by simp)

theorem Ticked.hold (h : Ticked s taken t) (hi : .hold ∉ taken) : Ticked s (taken ++ [.hold]) (tickHold t) := by
  rw [tickHold_eq]
  refine ⟨h.tick, h.cfg, fun j => ?_, fun hq => ?_, h.starts, fun hc => ?_, fun hc g => ?_⟩
  · exact (h.timers j).trans (by simp)
  · obtain ⟨timers, hp, lines, rfl⟩ := h.still hq
    exact ⟨timers, _, lines, rfl⟩
  · have hfresh : t.hp = s.hp := by rw [h.hp hc, if_neg hi]
    simpa using State.tickedHp_congr hfresh
  · exact (h.lines hc g).congr (by simp) (by simp)

theorem Ticked.line (h : Ticked s taken t) {g : Fin 4} (hg : .line g ∉ taken) :
    Ticked s (taken ++ [.line g]) (t.modLine g Line.onTick) := by
  refine ⟨h.tick, h.cfg, fun j => ?_, fun hq => ?_, h.starts, fun hc => ?_, fun hc k => ?_⟩
  · exact (h.timers j).trans (by simp)
  · obtain ⟨timers, hp, lines, rfl⟩ := h.still hq
    exact ⟨timers, hp, _, rfl⟩
  · simpa using h.hp hc
  · rw [State.modLine_lines, Four.get_modify]
    split
    next hk =>
      subst hk
      rw [Line.onTick_eq]
      exact ((h.lines hc k).ticks hg (by simp)).congr (by simp) Iff.rfl
    next hk => exact (h.lines hc k).congr (by simp) (by simp [hk])

/-- One more receiver takes the tick. -/
theorem Ticked.sink (h : Ticked s taken t) {k : TickSink} (hk : k ∉ taken) : Ticked s (taken ++ [k]) (tickSink t k) := by
  cases k with
  | timer i =>
    have hticks : tickSink t (.timer i) =
        if s.tickBounds i then boundary i (t.modTimer i Timer.ticked) else t.modTimer i Timer.ticked := by
      rw [← h.tickBounds_fresh hk]
      exact tickTimer_eq i t
    rw [hticks]
    split
    next hb => exact h.timer_bounds hk hb
    next hb => exact h.timer_quiet hk (Bool.eq_false_iff.mpr hb)
  | hold => exact h.hold hk
  | line g => exact h.line hk

/-- Receivers that each take the tick once, one after another. -/
theorem ticked_foldl (s : State) {l : List TickSink} (h : l.Nodup) : Ticked s l (l.foldl tickSink s) := by
  induction l using List.reverseRecOn with
  | nil => exact .nil s
  | append_singleton l k ih =>
    rw [List.foldl_append]
    obtain ⟨hl, -, hk⟩ := List.nodup_append.mp h
    exact (ih hl).sink fun hmem => hk k hmem k (List.mem_singleton_self k) rfl

end

theorem mem_allSinks (k : TickSink) : k ∈ allSinks := by
  rcases k with t | _ | g
  · fin_cases t <;> decide
  · decide
  · fin_cases g <;> decide

/-- The state in which the receivers take a tick: the next tick period has begun (R100, R173). -/
def State.restarted (s : State) : State := { s with tick := { s.tick with inForce := s.tick.divisor, count := 0 } }

/-- A whole tick: every receiver has taken it, whatever the order (R100). -/
theorem serviceTick_ticked {s : State} (order : List TickSink) (h : s.inReset = false) :
    ∃ l, (∀ k, k ∈ l) ∧ Ticked s.restarted l (serviceTick order s) := by
  have hperm := tickSchedule_perm order
  refine ⟨tickSchedule order, fun k => hperm.mem_iff.mpr (mem_allSinks k), ?_⟩
  have htick : serviceTick order s = (tickSchedule order).foldl tickSink s.restarted := if_neg (by simp [h])
  rw [htick]
  exact ticked_foldl _ (hperm.nodup_iff.mpr (by decide))

/-- Every timer takes its own step (R102). -/
theorem serviceTick_timers {s : State} (order : List TickSink) (h : s.inReset = false) :
    (serviceTick order s).timers = s.timers.map Timer.ticked := by
  obtain ⟨l, hall, ht⟩ := serviceTick_ticked order h
  refine Four.ext_get fun i => ?_
  rw [Four.get_map]
  exact (ht.timers i).trans (if_pos (hall _))

/-- A whole tick without a boundary event, field by field (R30, R102, R154). -/
theorem serviceTick_quiet {s : State} (order : List TickSink) (h : s.inReset = false)
    (hq : ∀ i, s.tickBounds i = false) : serviceTick order s =
      { s.restarted with timers := s.timers.map Timer.ticked, hp := s.tickedHp, lines := s.lines.map lineTicked } := by
  obtain ⟨l, hall, ht⟩ := serviceTick_ticked order h
  have htimers := serviceTick_timers order h
  obtain ⟨timers, hp, lines, hstill⟩ := ht.still hq
  have hhp := ht.hp (.inr hq)
  rw [if_pos (hall _)] at hhp
  have hlines : (serviceTick order s).lines = s.lines.map lineTicked := Four.ext_get fun g => by
    rw [Four.get_map]
    exact (ht.lines (.inr hq) g).of_quiet (by simp [show s.restarted.tickBounds g = false from hq g]) (hall _)
  rw [hstill] at htimers hhp hlines ⊢
  cases htimers
  cases hhp
  cases hlines
  rfl

/-- Settles O25: the receivers have all taken the tick once, and each part of the state says what that has made of it. -/
theorem serviceTickReachesEveryReceiverOnce : Obligations.ServiceTickReachesEveryReceiverOnce := by
  intro s order stepped timers hr hstepped htimers
  have hticked : timers = s.timers.map Timer.ticked := htimers
  have hsteps : ∀ t, stepped t = (s.timer t).stepsAtTick := hstepped
  rw [exec_serviceTick]
  refine ⟨fun base hq hbase => ?_, serviceTick order s, rfl, ?_⟩
  · have hquiet : ∀ t, s.tickBounds t = false := fun t => by
      rw [State.tickBounds, ← hsteps]
      cases ht : stepped t
      · rfl
      · exact hq t ht
    subst hbase hticked
    rw [serviceTick_quiet order hr hquiet]
    exact ⟨fun hn => by rw [State.tickedHp_none hn]; rfl, fun h k hh hk => by rw [State.tickedHp_some hh hk]; rfl⟩
  · obtain ⟨l, hall, ht⟩ := serviceTick_ticked order hr
    refine ⟨ht.tick, (serviceTick_timers order hr).trans hticked.symm, fun hn => ?_⟩
    have hhp : (serviceTick order s).hp = s.tickedHp := (ht.hp (.inl hn)).trans (if_pos (hall _))
    refine ⟨fun hno => by rw [hhp, State.tickedHp_none hno], fun h k hh hk => by rw [hhp, State.tickedHp_some hh hk],
      fun g => ⟨fun hg => ?_, ?_⟩⟩
    · have hquiet : s.tickBounds g = false := by
        rw [State.tickBounds, ← hsteps]
        rcases hg with hg | hg <;> simp [hg]
      exact (ht.lines (.inl hn) g).of_quiet (fun he => by cases hquiet.symm.trans he.1) (hall _)
    · obtain ⟨f, hf, -, -, hafter⟩ := ht.lines (.inl hn) g
      exact ⟨f, hf, hafter (hall _)⟩

end Sys2Proof.Machine

namespace Sys2Proof.Machine

/-! ## One port and the issue list (R123, R124, R130) -/

/-- A record whose answer requester `x` waits for (R130, R138). -/
def IssueRec.LiveFor (x : Requester) (r : IssueRec) : Prop := r.requester = x ∧ r.orphan = false

/-- The slots of a port agree with the records that its requester `x` has in the issue list `l`. -/
structure SlotsAgree (x : Requester) (l : List IssueRec) (slots : List Slot) : Prop where
  room : slots.length ≤ 4
  order : headsInOrder slots = true
  ids : (slots.map Slot.id).Nodup
  outstanding : issuedSlots slots = liveRecords l x

theorem portsSound_iff (s : State) :
    PortsSound s ↔ s.issue.length ≤ 8 ∧ ∀ p, SlotsAgree (PortId.requester p) s.issue (s.port p).slots := by
  constructor
  · rintro ⟨⟨hissue, hhp, hcp⟩, ⟨o1, i1, e1⟩, ⟨o2, i2, e2⟩⟩
    refine ⟨hissue, fun p => ?_⟩
    cases p
    · exact ⟨hhp, o1, i1, e1⟩
    · exact ⟨hcp, o2, i2, e2⟩
  · rintro ⟨hissue, h⟩
    obtain ⟨hhp, o1, i1, e1⟩ := h .hp
    obtain ⟨hcp, o2, i2, e2⟩ := h .cp
    exact ⟨⟨hissue, hhp, hcp⟩, ⟨o1, i1, e1⟩, ⟨o2, i2, e2⟩⟩

/-! ### The records of a requester -/

theorem liveRecords_append (l m : List IssueRec) (x : Requester) :
    liveRecords (l ++ m) x = liveRecords l x ++ liveRecords m x := by
  simp [liveRecords]

theorem liveRecords_cons_live {x : Requester} {r : IssueRec} (h : r.LiveFor x) (l : List IssueRec) :
    liveRecords (r :: l) x = (r.slot, r.req) :: liveRecords l x := by
  obtain ⟨hr, ho⟩ := h
  simp [liveRecords, hr, ho]

theorem liveRecords_cons_other {x : Requester} {r : IssueRec} (h : ¬ r.LiveFor x) (l : List IssueRec) :
    liveRecords (r :: l) x = liveRecords l x := by
  have hb : (r.requester == x && !r.orphan) = false := Bool.eq_false_iff.mpr (by simpa [IssueRec.LiveFor] using h)
  simp [liveRecords, hb]

theorem liveRecords_none {x : Requester} {l : List IssueRec} (h : ∀ r ∈ l, ¬ r.LiveFor x) : liveRecords l x = [] := by
  induction l with
  | nil => rfl
  | cons r l ih => rw [liveRecords_cons_other (h r (by simp)), ih fun y hy => h y (by simp [hy])]

/-! ### The issued slots -/

theorem issuedSlots_append (l m : List Slot) : issuedSlots (l ++ m) = issuedSlots l ++ issuedSlots m := by
  simp [issuedSlots]

theorem issuedSlots_cons_issued {sl : Slot} (h : sl.phase = .issued) (l : List Slot) :
    issuedSlots (sl :: l) = (some sl.id, sl.req) :: issuedSlots l := by
  simp [issuedSlots, h]

theorem issuedSlots_cons_other {sl : Slot} (h : sl.phase ≠ .issued) (l : List Slot) :
    issuedSlots (sl :: l) = issuedSlots l := by
  simp [issuedSlots, h]

theorem issuedSlots_none {l : List Slot} (h : ∀ sl ∈ l, sl.phase ≠ .issued) : issuedSlots l = [] := by
  induction l with
  | nil => rfl
  | cons sl l ih => rw [issuedSlots_cons_other (h sl (by simp)), ih fun y hy => h y (by simp [hy])]

theorem Slot.not_issued_of_active {sl : Slot} (h : sl.active = true) : sl.phase ≠ .issued := by
  intro hp
  simp [Slot.active, hp] at h

/-- A head that moves to another phase than issued issues nothing. -/
theorem issuedSlots_replaceHead {ph : SlotPhase} (h : ph ≠ .issued) (l : List Slot) :
    issuedSlots (replaceHead ph l) = issuedSlots l := by
  induction l with
  | nil => rfl
  | cons sl l ih =>
    unfold replaceHead
    split
    next ha => rw [issuedSlots_cons_other h, issuedSlots_cons_other (Slot.not_issued_of_active ha)]
    next =>
      by_cases hi : sl.phase = .issued
      · rw [issuedSlots_cons_issued hi, issuedSlots_cons_issued hi, ih]
      · rw [issuedSlots_cons_other hi, issuedSlots_cons_other hi, ih]

/-- A head that is issued becomes the last of the issued slots: those behind the head wait (R124). -/
theorem issuedSlots_issue {slots : List Slot} {sl : Slot} (hsl : slots.find? Slot.active = some sl)
    (ho : headsInOrder slots = true) :
    issuedSlots (replaceHead .issued slots) = issuedSlots slots ++ [(some sl.id, sl.req)] := by
  induction slots with
  | nil => cases hsl
  | cons x l ih =>
    cases hx : x.active with
    | true =>
      simp only [List.find?_cons, hx, Option.some.injEq] at hsl
      have hl : issuedSlots l = [] := issuedSlots_none fun y hy => by simp [(headsInOrder_cons hx).mp ho y hy]
      rw [replaceHead, if_pos hx, issuedSlots_cons_issued rfl,
        issuedSlots_cons_other (Slot.not_issued_of_active hx), hl, hsl]
      rfl
    | false =>
      simp only [headsInOrder, hx, Bool.false_eq_true, if_false, List.find?_cons] at ho hsl
      rw [replaceHead, if_neg (by simp [hx])]
      by_cases hi : x.phase = .issued
      · rw [issuedSlots_cons_issued hi, issuedSlots_cons_issued hi, ih hsl ho, List.cons_append]
      · rw [issuedSlots_cons_other hi, issuedSlots_cons_other hi, ih hsl ho]

/-- A number that no slot has answers no slot. -/
theorem map_answer_none {i : Fin 4} {l : List Slot} (resp : Response) (h : ∀ sl ∈ l, sl.id ≠ i) :
    l.map (Slot.answer i resp) = l :=
  (List.map_congr_left fun sl hsl => if_neg fun hc => h sl hsl hc.1).trans (List.map_id l)

/-- The answer of the oldest issued slot takes that slot from the issued ones, and no other (R132). -/
theorem issuedSlots_answer {i : Fin 4} {q : Request} {rest : List (Option (Fin 4) × Request)} {slots : List Slot}
    (resp : Response) (hids : (slots.map Slot.id).Nodup) (h : issuedSlots slots = (some i, q) :: rest) :
    issuedSlots (slots.map (Slot.answer i resp)) = rest := by
  induction slots with
  | nil => cases h
  | cons sl l ih =>
    obtain ⟨hfresh, hids⟩ := List.nodup_cons.mp hids
    by_cases hi : sl.phase = .issued
    · simp only [issuedSlots_cons_issued hi, List.cons.injEq, Prod.mk.injEq, Option.some.injEq] at h
      obtain ⟨⟨rfl, -⟩, hl⟩ := h
      have answered : sl.answer sl.id resp = { sl with phase := .answered resp } := if_pos ⟨rfl, hi⟩
      rw [List.map_cons, answered, issuedSlots_cons_other (by simp),
        map_answer_none resp fun y hy he => hfresh (List.mem_map.mpr ⟨y, hy, he⟩), hl]
    · have unanswered : sl.answer i resp = sl := if_neg fun hc => hi hc.2
      rw [issuedSlots_cons_other hi] at h
      rw [List.map_cons, unanswered, issuedSlots_cons_other hi, ih hids h]

theorem map_answer_ids (i : Fin 4) (resp : Response) (slots : List Slot) :
    (slots.map (Slot.answer i resp)).map Slot.id = slots.map Slot.id := by
  rw [List.map_map]
  refine List.map_congr_left fun sl _ => ?_
  simp only [Function.comp_apply, Slot.answer]
  split <;> rfl

/-! ### What a port may do -/

/-- A head that is not issued moves (R124). -/
theorem SlotsAgree.moves {x : Requester} {l : List IssueRec} {slots : List Slot} {ph : SlotPhase}
    (h : SlotsAgree x l slots) (hph : ph ≠ .issued) : SlotsAgree x l (replaceHead ph slots) where
  room := by simpa using h.room
  order := headsInOrder_replaceHead ph h.order
  ids := by simpa using h.ids
  outstanding := (issuedSlots_replaceHead hph slots).trans h.outstanding

/-- Requests are accepted, each into a free slot (R123). -/
theorem SlotsAgree.accepts {x : Requester} {l : List IssueRec} {p : Port} (h : SlotsAgree x l p.slots)
    (reqs : List Request) : SlotsAgree x l (acceptOffered reqs p).slots where
  room := acceptOffered_length_le reqs h.room
  order := (acceptOffered_follows reqs p h.order).1
  ids := acceptOffered_ids_nodup reqs h.ids
  outstanding := by
    refine acceptOffered_keeps (P := fun q => issuedSlots q.slots = liveRecords l x) (fun _ _ => id) (fun q r _ hq => ?_)
      reqs h.outstanding
    rw [Port.accept, issuedSlots_append, hq]
    exact List.append_nil _

/-- The oldest slot is answered, and its response is delivered (R126). -/
theorem SlotsAgree.delivers {x : Requester} {l : List IssueRec} {slots : List Slot} {sl : Slot} {resp : Response}
    (h : SlotsAgree x l (sl :: slots)) (hsl : sl.phase = .answered resp) : SlotsAgree x l slots where
  room := Nat.le_of_succ_le h.room
  order := by simpa [headsInOrder, Slot.active, hsl] using h.order
  ids := (List.nodup_cons.mp h.ids).2
  outstanding := (issuedSlots_cons_other (by simp [hsl]) slots).symm.trans h.outstanding

/-- The head is issued, and its record is placed (R131). -/
theorem SlotsAgree.issues {x : Requester} {l : List IssueRec} {slots : List Slot} {sl : Slot} {r : IssueRec}
    (h : SlotsAgree x l slots) (hsl : slots.find? Slot.active = some sl) (hr : r.LiveFor x)
    (hslot : r.slot = some sl.id) (hreq : r.req = sl.req) : SlotsAgree x (l ++ [r]) (replaceHead .issued slots) where
  room := by simpa using h.room
  order := headsInOrder_replaceHead _ h.order
  ids := by simpa using h.ids
  outstanding := by
    rw [issuedSlots_issue hsl h.order, liveRecords_append, liveRecords_cons_live hr, hslot, hreq, h.outstanding]
    rfl

/-- A record of another requester is placed. -/
theorem SlotsAgree.beside {x : Requester} {l : List IssueRec} {slots : List Slot} {r : IssueRec}
    (h : SlotsAgree x l slots) (hr : ¬ r.LiveFor x) : SlotsAgree x (l ++ [r]) slots where
  room := h.room
  order := h.order
  ids := h.ids
  outstanding := by
    rw [liveRecords_append, liveRecords_cons_other hr, h.outstanding]
    exact (List.append_nil _).symm

/-- The oldest record leaves, and is not one that the port waits for. -/
theorem SlotsAgree.departs {x : Requester} {l : List IssueRec} {slots : List Slot} {r : IssueRec}
    (h : SlotsAgree x (r :: l) slots) (hr : ¬ r.LiveFor x) : SlotsAgree x l slots where
  room := h.room
  order := h.order
  ids := h.ids
  outstanding := h.outstanding.trans (liveRecords_cons_other hr l)

/-- A record that a port waits for names its slot (R130). -/
theorem SlotsAgree.slot_some {x : Requester} {l : List IssueRec} {slots : List Slot} {r : IssueRec}
    (h : SlotsAgree x (r :: l) slots) (hr : r.LiveFor x) : ∃ i, r.slot = some i := by
  have hmem : (r.slot, r.req) ∈ issuedSlots slots := by simp [h.outstanding, liveRecords_cons_live hr]
  obtain ⟨sl, -, he⟩ := List.mem_map.mp hmem
  exact ⟨sl.id, (congrArg Prod.fst he).symm⟩

/-- The oldest record is answered, and its slot with it (R132). -/
theorem SlotsAgree.answers {x : Requester} {l : List IssueRec} {slots : List Slot} {r : IssueRec} {i : Fin 4}
    (h : SlotsAgree x (r :: l) slots) (hr : r.LiveFor x) (hslot : r.slot = some i) (resp : Response) :
    SlotsAgree x l (slots.map (Slot.answer i resp)) where
  room := by simpa using h.room
  order := (PortFollows.of_answer i resp ⟨slots, [], none⟩ h.order).1
  ids := by simpa only [map_answer_ids] using h.ids
  outstanding := issuedSlots_answer (q := r.req) resp h.ids
    (h.outstanding.trans (by rw [liveRecords_cons_live hr, hslot]))

/-- Every slot is answered, and every record an orphan (R137, R138). -/
theorem SlotsAgree.resets {x : Requester} {l : List IssueRec} {slots : List Slot} (h : SlotsAgree x l slots) :
    SlotsAgree x (l.map IssueRec.orphaned) (slots.map Slot.softReset) where
  room := by simpa using h.room
  order := by
    have skip := headsInOrder_skip (l1 := slots.map Slot.softReset) [] fun y hy => by
      obtain ⟨sl, -, rfl⟩ := List.mem_map.mp hy
      rfl
    simpa [headsInOrder] using skip
  ids := by
    rw [List.map_map]
    exact h.ids
  outstanding := by
    rw [issuedSlots_none, liveRecords_none]
    · intro r hr
      obtain ⟨y, -, rfl⟩ := List.mem_map.mp hr
      exact fun hl => nomatch hl.2
    · intro sl hsl
      obtain ⟨y, -, rfl⟩ := List.mem_map.mp hsl
      exact fun hp => nomatch hp

end Sys2Proof.Machine

namespace Sys2Proof.Machine

/-! ## Steps that keep the law of the ports

A step accepts, delivers, places, answers or resets; every other step at most moves a head that is not issued. -/

/-- What the law of the ports reads of a state. -/
abbrev State.portsView (s : State) : List Slot × List Slot × List IssueRec := (s.hp.slots, s.cp.slots, s.issue)

/-- A step from `s` to `t` keeps the law of the ports. -/
def PortsKept (s t : State) : Prop := PortsSound s → PortsSound t

theorem PortsKept.refl (s : State) : PortsKept s s := id

theorem PortsKept.trans {s t u : State} (h1 : PortsKept s t) (h2 : PortsKept t u) : PortsKept s u := h2 ∘ h1

theorem PortsKept.of_view {s t : State} (h : t.portsView = s.portsView) : PortsKept s t := by
  obtain ⟨hhp, hcp, hissue⟩ : t.hp.slots = s.hp.slots ∧ t.cp.slots = s.cp.slots ∧ t.issue = s.issue := by simpa using h
  intro hs
  simpa only [PortsSound, WithinLimits, PortAgrees, State.port, hhp, hcp, hissue] using hs

/-- One port changes, and the issue list by records that the other port does not wait for. -/
theorem PortsKept.of_port (p : PortId) {s t : State} (hlength : s.issue.length ≤ 8 → t.issue.length ≤ 8)
    (hown : SlotsAgree (PortId.requester p) s.issue (s.port p).slots →
      SlotsAgree (PortId.requester p) t.issue (t.port p).slots)
    (hother : ∀ q, q ≠ p → t.port q = s.port q)
    (hbeside : ∀ q, q ≠ p → ∀ slots, SlotsAgree (PortId.requester q) s.issue slots →
      SlotsAgree (PortId.requester q) t.issue slots) : PortsKept s t := by
  intro hs
  obtain ⟨hissue, hslots⟩ := (portsSound_iff s).mp hs
  refine (portsSound_iff t).mpr ⟨hlength hissue, fun q => ?_⟩
  by_cases hq : q = p
  · subst hq
    exact hown (hslots q)
  · rw [hother q hq]
    exact hbeside q hq _ (hslots q)

theorem State.port_setPort_other {p q : PortId} (h : q ≠ p) (x : Port) (s : State) :
    (s.setPort p x).port q = s.port q := by
  cases p <;> cases q <;> simp_all [State.port]

/-- One port changes, and its slots go on agreeing with the issue list. -/
theorem setPort_ports {p : PortId} {x : Port} {s : State}
    (h : SlotsAgree (PortId.requester p) s.issue (s.port p).slots →
      SlotsAgree (PortId.requester p) s.issue x.slots) : PortsKept s (s.setPort p x) :=
  .of_port p (by simp) (by simpa using h) (fun _ hq => s.port_setPort_other hq x) (by simp)

theorem setHead_ports {ph : SlotPhase} (hph : ph ≠ .issued) (p : PortId) (s : State) : PortsKept s (s.setHead p ph) :=
  setPort_ports fun h => h.moves hph

/-! ### Heads and admission -/

theorem admitted_ports (g : Fin 4) (r : Request) {ph : SlotPhase} (hph : ph ≠ .issued) (s : State) :
    PortsKept s ((admitWrite g r s).setHead .hp ph) :=
  PortsKept.trans (t := admitWrite g r s) (.of_view rfl) (setHead_ports hph .hp _)

theorem offerAdmission_ports (cls : ReqClass) (g : Fin 4) (policy : FullPolicy) (r : Request) (s : State) :
    PortsKept s (offerAdmission cls g policy r s) := by
  have hph : offerPhase cls g policy r s ≠ .issued := by
    unfold offerPhase
    split
    · simp
    · split <;> simp
  unfold offerAdmission
  split
  · exact admitted_ports g r hph s
  · exact setHead_ports hph .hp s

theorem retryAdmission_ports (s : State) : PortsKept s (retryAdmission s) := by
  unfold retryAdmission
  split
  · split
    · exact admitted_ports _ _ (by simp) s
    · exact .refl s
  · exact .refl s

theorem expireHold_ports (s : State) : PortsKept s (expireHold s) := by
  unfold expireHold
  split
  · split
    · split
      · exact setHead_ports (by simp) .hp s
      · exact .refl s
    · exact .refl s
  · exact .refl s

theorem tickHold_ports (s : State) : PortsKept s (tickHold s) := by
  unfold tickHold
  split
  · split
    · split
      · exact expireHold_ports s
      · exact setHead_ports (by simp) .hp s
    · exact .refl s
  · exact .refl s

theorem forwardPhase_not_issued (cls : ReqClass) (g : Fin 4) (r : Request) (s : State) :
    forwardPhase cls g r s ≠ .issued := by
  unfold forwardPhase
  split <;> simp

theorem handleHost_ports (cls : ReqClass) (r : Request) (s : State) : PortsKept s (handleHost cls r s) := by
  cases cls with
  | bypassed => exact setHead_ports (by simp) .hp s
  | outside => exact setHead_ports (by simp) .hp s
  | locked n => cases hk : r.kind <;> simp only [handleHost, hk] <;> exact setHead_ports (by simp) .hp s
  | staged n g fwd policy =>
    simp only [handleHost]
    split
    · exact setHead_ports (by simp) .hp s
    · exact offerAdmission_ports _ _ _ _ s
    · exact offerAdmission_ports _ _ _ _ s
    · exact setHead_ports (by simp) .hp s
    all_goals
      split
      · exact setHead_ports (forwardPhase_not_issued _ _ _ _) .hp s
      · exact setHead_ports (by simp) .hp s

theorem handleConsumer_ports (cls : ReqClass) (r : Request) (s : State) : PortsKept s (handleConsumer cls r s) := by
  unfold handleConsumer
  split
  · exact setHead_ports (by simp) .cp s
  · split <;> exact setHead_ports (by simp) .cp s
  · exact setHead_ports (by simp) .cp s

theorem observe_ports (stream : Requester) (k : Kind) (words : List Addr) (s : State) :
    PortsKept s (observe stream k words s) :=
  .of_view (observe_frame State.portsView (fun _ _ _ => rfl) stream k words s)

theorem processHead_ports (p : PortId) (s : State) : PortsKept s (processHead p s) := by
  unfold processHead
  split
  next sl _ =>
    split
    next =>
      refine (observe_ports (PortId.requester p) sl.req.kind (monitoredWords sl.req) s).trans ?_
      unfold examine
      split
      · exact setHead_ports (by simp) p _
      · cases p
        · exact handleHost_ports _ _ _
        · exact handleConsumer_ports _ _ _
    all_goals exact .refl s
  next => exact .refl s

theorem reexamineHost_ports (g : Fin 4) (s : State) : PortsKept s (reexamineHost g s) := by
  unfold reexamineHost
  split
  · split
    · split
      · exact setHead_ports (by simp) .hp s
      · split
        · split
          · exact offerAdmission_ports _ _ _ _ s
          · split
            · exact setHead_ports (forwardPhase_not_issued _ _ _ _) .hp s
            · exact .refl s
        · exact .refl s
      all_goals exact .refl s
    all_goals exact .refl s
  · exact .refl s

theorem reexamineConsumer_ports (g : Fin 4) (s : State) : PortsKept s (reexamineConsumer g s) := by
  rcases reexamineConsumer_cases g s with ⟨h, -⟩ | ⟨_, _, -, h⟩ <;> rw [h]
  · exact .refl s
  · exact setHead_ports (by simp) .cp s

/-! ### Acceptance and delivery -/

theorem causeOf_ports (c : RespCode) (s : State) : PortsKept s (causeOf c s) := by
  unfold causeOf
  split
  · exact .refl s
  · exact .of_view rfl

theorem deliver_ports (p : PortId) (s : State) : PortsKept s (deliver p s) := by
  unfold deliver
  split
  · exact .refl s
  next sl rest hslots =>
    split
    next resp hph =>
      refine PortsKept.trans (setPort_ports fun h => ?_) (causeOf_ports _ _)
      rw [hslots] at h
      exact SlotsAgree.accepts (p := { s.port p with slots := rest, delivered := some resp }) (h.delivers hph) _
    all_goals exact .refl s

theorem arrive_ports (p : PortId) (r : Request) (s : State) : PortsKept s (arrive p r s) := by
  unfold arrive
  split
  · exact setPort_ports id
  · exact setPort_ports fun h => h.accepts _

/-! ### Seals, completions and starts -/

theorem releaseHeld_ports (g : Fin 4) (s : State) : PortsKept s (releaseHeld g s) := by
  unfold releaseHeld
  split
  · split
    · exact setHead_ports (by simp) .hp s
    · exact .refl s
  · exact .refl s

theorem convertHold_ports (g : Fin 4) (s : State) : PortsKept s (convertHold g s) := by
  unfold convertHold
  split
  · split
    · exact setHead_ports (by simp) .hp s
    · exact .refl s
  · exact .refl s

theorem reachDisabled_ports (g : Fin 4) (s : State) : PortsKept s (reachDisabled g s) := by
  have released : PortsKept s (releaseHeld g (s.inState g .disabled)) :=
    PortsKept.trans (t := s.inState g .disabled) (.of_view rfl) (releaseHeld_ports g _)
  obtain ⟨m, e, h⟩ := leavingCheck_eq (releaseHeld g (s.inState g .disabled))
  have checks : PortsKept (releaseHeld g (s.inState g .disabled)) (reachDisabled g s) := by
    rw [reachDisabled, h]
    exact .of_view rfl
  exact released.trans checks

theorem finishDrain_ports (g : Fin 4) (s : State) : PortsKept s (finishDrain g s) := by
  have completed : PortsKept s (completeCore g s) := .of_view rfl
  unfold finishDrain completeStopping
  split
  · split
    · exact completed.trans (.of_view rfl)
    · exact completed.trans (reachDisabled_ports g _)
  · exact completed

theorem testStart_ports (s : State) : PortsKept s (testStart s) := by
  obtain ⟨u, hu⟩ := startTest_total s
  rw [testStart_of hu]
  induction hu with
  | rests => exact .refl _
  | starts => exact .of_view rfl
  | @completes s u g rest _ _ _ _ _ _ ih =>
    rw [← finishDrain_eq] at ih
    exact PortsKept.trans (t := beginDrain g rest s) (.of_view rfl) ((finishDrain_ports g _).trans ih)

theorem sealGroup_ports (g : Fin 4) (s : State) : PortsKept s (sealGroup g s) :=
  PortsKept.trans (t := sealCore g s) (.of_view rfl) (testStart_ports _)

theorem testCompletion_ports (s : State) : PortsKept s (testCompletion s) := by
  unfold testCompletion
  split
  · split
    · exact (finishDrain_ports _ s).trans (testStart_ports _)
    · exact .refl s
  · exact .refl s

theorem boundary_ports (g : Fin 4) (s : State) : PortsKept s (boundary g s) := by
  unfold boundary
  split
  · split
    · exact .of_view rfl
    · split
      · exact sealGroup_ports g s
      · exact .refl s
  all_goals exact .refl s

theorem disableGroup_ports (g : Fin 4) (s : State) : PortsKept s (disableGroup g s) := by
  have stops : PortsKept s (convertHold g (s.inState g .stopping)) :=
    PortsKept.trans (t := s.inState g .stopping) (.of_view rfl) (convertHold_ports g _)
  unfold disableGroup
  split
  · exact reachDisabled_ports g s
  · dsimp only
    split
    · exact stops.trans (sealGroup_ports g _)
    · exact stops

theorem windDown_ports (s : State) (g : Fin 4) : PortsKept s (windDown s g) := by
  unfold windDown
  split
  · exact disableGroup_ports g s
  · exact disableGroup_ports g s
  all_goals exact .refl s

/-! ### Grants and answers -/

theorem requester_ne_ce (p : PortId) : PortId.requester p ≠ .ce := by cases p <;> simp [PortId.requester]

theorem requester_inj {p q : PortId} (h : PortId.requester p = PortId.requester q) : p = q := by
  cases p <;> cases q <;> simp_all [PortId.requester]

/-- A port's head is granted: its record goes to the tail of the list, and its slot is the last of the issued ones
(R131). -/
theorem grantPort_ports {p : PortId} {sl : Slot} {f : Bool} {s : State} (hroom : s.issue.length < 8)
    (hm : (s.port p).memoryHead = some (sl, f)) : PortsKept s (grantPort p sl f s) := by
  have hissue : (grantPort p sl f s).issue = s.issue ++ [portRecord p sl f s] :=
    congrArg Prod.fst (grantPort_view p sl f s)
  have hport : (grantPort p sl f s).port p = (s.port p).setHead .issued := by cases p <;> rfl
  have hother : ∀ q, q ≠ p → (grantPort p sl f s).port q = s.port q := fun q hq =>
    (State.port_setHead_other hq .issued _).trans (by cases q <;> rfl)
  refine .of_port p (fun _ => ?_) (fun h => ?_) hother fun q hq _ h => ?_ <;> rw [hissue]
  · simpa using hroom
  · rw [hport]
    exact h.issues (memoryHead_head hm) ⟨rfl, rfl⟩ rfl rfl
  · exact h.beside fun hl => hq (requester_inj hl.1.symm)

/-- The record of a commit write is none that a port waits for. -/
theorem grantEngine_ports {e : Entry} {s : State} (hroom : s.issue.length < 8) : PortsKept s (grantEngine e s) := by
  intro hs
  obtain ⟨-, hslots⟩ := (portsSound_iff s).mp hs
  have hissue : (grantEngine e s).issue = s.issue ++ [commitRecord e] := congrArg Prod.fst (grantEngine_view e s)
  have hport : ∀ p, (grantEngine e s).port p = s.port p := fun p => by
    unfold grantEngine
    rw [observe_port]
    cases p <;> rfl
  refine (portsSound_iff _).mpr ⟨?_, fun p => ?_⟩ <;> rw [hissue]
  · simpa using hroom
  · rw [hport]
    exact (hslots p).beside fun hl => requester_ne_ce p hl.1.symm

theorem grant_ports (s : State) : PortsKept s (grant s) := by
  rcases grant_cases s with h | ⟨p, sl, f, hc, hm, h⟩ | ⟨e, hc, -, h⟩ <;> rw [h]
  · exact .refl s
  · exact grantPort_ports (chosen_room hc) hm
  · exact grantEngine_ports (chosen_room hc)

/-- The oldest record leaves, and no port waits for it. -/
theorem departRecord_ports {r : IssueRec} {rest : List IssueRec} {s : State} (hi : s.issue = r :: rest)
    (hr : ∀ p, ¬ r.LiveFor (PortId.requester p)) : PortsKept s (departRecord r rest s) := by
  intro hs
  obtain ⟨hlength, hslots⟩ := (portsSound_iff s).mp hs
  rw [hi] at hlength hslots
  refine (portsSound_iff _).mpr ⟨Nat.le_of_succ_le hlength, fun p => ?_⟩
  cases p
  · exact (hslots .hp).departs (hr .hp)
  · exact (hslots .cp).departs (hr .cp)

/-- The oldest record leaves, and its answer goes to the slot of the port that waits for it (R132). -/
theorem answerPort_ports {p : PortId} {r : IssueRec} {rest : List IssueRec} {s : State} (ans : AnswerStatus)
    (data : List Word) (hi : s.issue = r :: rest) (hr : r.LiveFor (PortId.requester p)) :
    PortsKept s (answerPort p r ans data (departRecord r rest s)) := by
  have hissue : (answerPort p r ans data (departRecord r rest s)).issue = rest :=
    congrArg Prod.fst (answerPort_view p r ans data _)
  have hsame : ∀ q, (departRecord r rest s).port q = s.port q := fun q => by cases q <;> rfl
  refine .of_port p (fun h => ?_) (fun h => ?_) (fun q hq => ?_) fun q hq _ h => ?_
  · rw [hi] at h
    rw [hissue]
    exact Nat.le_of_succ_le h
  · rw [hi] at h
    obtain ⟨i, hslot⟩ := h.slot_some hr
    rw [hissue]
    simpa only [answerPort, hslot, State.port_setPort, hsame] using h.answers hr hslot _
  · rw [← hsame q, answerPort]
    split
    · rfl
    · exact State.port_setPort_other hq _ _
  · rw [hi] at h
    rw [hissue]
    exact h.departs fun hl => hq (requester_inj (hl.1.symm.trans hr.1))

theorem commitAnswer_ports (x : EntryRef) (ans : AnswerStatus) (s : State) : PortsKept s (commitAnswer x ans s) := by
  have settle : ∀ {t : State}, t.portsView = s.portsView → PortsKept s (testCompletion (retryAdmission t)) := fun h =>
    ((PortsKept.of_view h).trans (retryAdmission_ports _)).trans (testCompletion_ports _)
  unfold commitAnswer
  split
  · exact .refl s
  · split
    · exact settle rfl
    · exact settle rfl
    · exact .of_view rfl
    · exact .refl s

theorem takeAnswer_ports (ans : AnswerStatus) (data : List Word) (s : State) : PortsKept s (takeAnswer ans data s) := by
  unfold takeAnswer
  split
  · exact .refl s
  next r rest hi =>
    unfold routeAnswer
    split
    next ho => exact departRecord_ports hi fun p hl => by simp [hl.2] at ho
    next ho =>
      rw [Bool.not_eq_true] at ho
      split
      next hr => exact answerPort_ports ans data hi ⟨hr, ho⟩
      next hr => exact answerPort_ports ans data hi ⟨hr, ho⟩
      next hr =>
        have departed := departRecord_ports hi fun p hl => requester_ne_ce p (hl.1.symm.trans hr)
        split
        · exact departed.trans (commitAnswer_ports _ ans _)
        · exact departed

/-! ### Resets -/

theorem hardReset_ports (s : State) : PortsKept s (hardReset s) :=
  PortsKept.trans (t := State.reset) (fun _ => reset_ports) (.of_view rfl)

theorem releaseReset_ports (s : State) : PortsKept s (releaseReset s) := by
  unfold releaseReset
  split
  · have hp := setPort_ports (p := .hp) (s := s) fun h => h.accepts s.hp.offered
    exact hp.trans (PortsKept.trans (setPort_ports (p := .cp) fun h => h.accepts s.cp.offered) (.of_view rfl))
  · exact .refl s

theorem softReset_ports (s : State) : PortsKept s (softReset s) := by
  intro hs
  obtain ⟨hlength, hslots⟩ := (portsSound_iff s).mp hs
  refine (portsSound_iff _).mpr ⟨by simpa [softReset] using hlength, fun p => ?_⟩
  cases p
  · exact (hslots .hp).resets
  · exact (hslots .cp).resets

end Sys2Proof.Machine

namespace Sys2Proof.Machine

/-! ### Time -/

theorem foldl_ports {α : Type} {f : State → α → State} (hf : ∀ s a, PortsKept s (f s a)) (l : List α) (s : State) :
    PortsKept s (l.foldl f s) := by
  induction l generalizing s with
  | nil => exact .refl s
  | cons a l ih => exact (hf s a).trans (ih _)

theorem modTimer_ports (t : Fin 4) (f : Timer → Timer) (s : State) : PortsKept s (s.modTimer t f) := .of_view rfl

theorem countEvent_ports (t : Fin 4) (s : State) : PortsKept s (countEvent t s) := by
  have steps := modTimer_ports t Timer.step s
  unfold countEvent
  split
  · split
    · exact steps.trans (boundary_ports t _)
    · exact steps
  · exact .refl s

theorem tickTimer_ports (t : Fin 4) (s : State) : PortsKept s (tickTimer t s) := by
  unfold tickTimer
  split
  · split
    · exact .refl s
    · split
      · exact (modTimer_ports t _ s).trans (countEvent_ports t _)
      · exact modTimer_ports t _ s
  · exact .refl s

theorem tickSink_ports (s : State) (k : TickSink) : PortsKept s (tickSink s k) := by
  cases k with
  | timer t => exact tickTimer_ports t s
  | hold => exact tickHold_ports s
  | line g => exact .of_view rfl

theorem serviceTick_ports (order : List TickSink) (s : State) : PortsKept s (serviceTick order s) := by
  unfold serviceTick
  split
  · exact .refl s
  · exact PortsKept.trans (t := { s with tick := { s.tick with inForce := s.tick.divisor, count := 0 } })
      (.of_view rfl) (foldl_ports tickSink_ports _ _)

theorem refclkEdge_ports (s : State) : PortsKept s (refclkEdge s) := by
  unfold refclkEdge
  split
  · exact .refl s
  · split
    · exact .of_view rfl
    · exact PortsKept.trans (t := { s with freeIndex := s.freeIndex + 1 }) (.of_view rfl) (serviceTick_ports _ _)

theorem execTimerStep_ports {i : Fin 4} {s t : State} (h : execTimerStep i s = .next t) : PortsKept s t := by
  unfold execTimerStep at h
  cases h
  split
  · exact (modTimer_ports i _ s).trans (countEvent_ports i _)
  · exact .refl s

theorem syncActs_ports (t : Fin 4) (level : Bool) (s : State) : PortsKept s (syncActs t level s) := by
  have counts : PortsKept s (if countsSync (s.timer t) level then countEvent t s else s) := by
    split
    · exact countEvent_ports t s
    · exact .refl s
  unfold syncActs
  dsimp only
  split
  · exact counts.trans (boundary_ports t _)
  · exact counts

theorem syncSettles_ports (t : Fin 4) (level : Bool) (s : State) : PortsKept s (syncSettles t level s) := by
  unfold syncSettles
  split
  · exact .of_view rfl
  · split
    · exact .of_view rfl
    · exact PortsKept.trans (t := { s with syncLine := s.syncLine.set t level, syncRef := s.syncRef.set t level })
        (.of_view rfl) (syncActs_ports t level _)

theorem choldSet_ports (asserted : Bool) (s : State) : PortsKept s (choldSet asserted s) := by
  have moved : PortsKept s { s with chold := asserted } := .of_view rfl
  unfold choldSet
  split
  · exact moved.trans (testStart_ports _)
  · exact moved

/-! ### Requests -/

theorem ite_ports {c : Prop} [Decidable c] {s : State} {x y : Taken} (hx : PortsKept s x.state)
    (hy : PortsKept s y.state) : PortsKept s (if c then x else y).state := by
  split
  · exact hx
  · exact hy

theorem putWindow_ports (n : Fin 8) (v : WindowRaw) (s : State) : PortsKept s (putWindow n v s).state := by
  unfold putWindow
  split
  · exact .refl s
  · exact ite_ports (.refl s) (ite_ports (.refl s) (.of_view rfl))

theorem putGroupCfg_ports (g : Fin 4) (v : GroupCfgRaw) (s : State) : PortsKept s (putGroupCfg g v s).state := by
  unfold putGroupCfg
  split
  · exact .refl s
  · exact ite_ports (.refl s) (ite_ports (.refl s) (.of_view rfl))

theorem putTimerCfg_ports (t : Fin 4) (v : TimerCfgRaw) (s : State) : PortsKept s (putTimerCfg t v s).state := by
  unfold putTimerCfg
  split
  · exact .refl s
  · exact ite_ports (.refl s) (ite_ports (.refl s) (ite_ports (modTimer_ports t _ s) (modTimer_ports t _ s)))

theorem putMonCfg_ports (m : Fin 4) (v : MonCfgRaw) (s : State) : PortsKept s (putMonCfg m v s).state := by
  unfold putMonCfg
  split
  · exact .refl s
  · exact .of_view rfl

theorem putCmtCfg_ports (g : Fin 4) (v : CmtCfgRaw) (s : State) : PortsKept s (putCmtCfg g v s).state := by
  unfold putCmtCfg
  split
  · exact ite_ports (.refl s) (.of_view rfl)
  · exact .refl s

theorem readEffect_ports (o : Obj) (s : State) : PortsKept s (readEffect o s) := by
  unfold readEffect
  split
  · exact .of_view rfl
  · exact .refl s

theorem setCmtAction_ports (arg : Byte) (s : State) : PortsKept s (setCmtAction arg s).state := by
  unfold setCmtAction
  split
  · exact .refl s
  · exact .of_view rfl

theorem bypassAction_ports (arg : Byte) (s : State) : PortsKept s (bypassAction arg s).state :=
  ite_ports (.refl s) <| ite_ports (.refl s) <| ite_ports (.of_view rfl) <|
    PortsKept.trans (t := { s with mode := .leaving }) (.of_view rfl) (foldl_ports windDown_ports _ _)

theorem enableAction_ports (g : Fin 4) (s : State) : PortsKept s (enableAction g s).state := by
  have enables : PortsKept s (reexamineConsumer g (reexamineHost g (s.modGroup g GroupRec.enabled))) :=
    (PortsKept.trans (t := s.modGroup g GroupRec.enabled) (.of_view rfl) (reexamineHost_ports g _)).trans
      (reexamineConsumer_ports g _)
  exact ite_ports (.refl s) (ite_ports (.refl s) enables)

theorem disableAction_ports (g : Fin 4) (s : State) : PortsKept s (disableAction g s).state := by
  unfold disableAction
  split
  · exact disableGroup_ports g s
  · exact disableGroup_ports g s
  all_goals exact .refl s

theorem sealAction_ports (g : Fin 4) (s : State) : PortsKept s (sealAction g s).state := by
  have seals : PortsKept s (if (s.group g).hasSealed then refuse .busy s else done (sealGroup g s)).state :=
    ite_ports (.refl s) (sealGroup_ports g s)
  unfold sealAction
  split
  · exact .refl s
  · exact .refl s
  · exact seals
  · exact seals

theorem discardAction_ports (g : Fin 4) (s : State) : PortsKept s (discardAction g s).state := by
  have discards : PortsKept s (retryAdmission (discardOpen g s)) :=
    PortsKept.trans (t := discardOpen g s) (.of_view rfl) (retryAdmission_ports _)
  unfold discardAction
  split
  · exact .refl s
  · exact .refl s
  · exact discards
  · exact discards

theorem timerStartAction_ports (t : Fin 4) (s : State) : PortsKept s (timerStartAction t s).state :=
  ite_ports (.refl s) (modTimer_ports t _ s)

theorem timerStopAction_ports (t : Fin 4) (s : State) : PortsKept s (timerStopAction t s).state :=
  ite_ports (modTimer_ports t _ s) (.refl s)

theorem withIndex_ports {f : Fin 4 → State → Taken} (hf : ∀ g s, PortsKept s (f g s).state) (arg : Byte) (s : State) :
    PortsKept s (withIndex arg f s).state := by
  unfold withIndex
  split
  · exact .refl s
  · exact hf _ s

/-- Every request keeps the law of the ports once its CRC byte is found correct (R167). -/
theorem requestOp_ports (c : Instr) (s : State) : PortsKept s (requestOp c s).state := by
  cases c with
  | get o crc => exact readEffect_ports o s
  | getCapture m crc => exact readEffect_ports (.capture m) s
  | putDevice v crc => exact ite_ports (.refl s) (.of_view rfl)
  | putWindow n v crc => exact putWindow_ports n v s
  | putGroupCfg g v crc => exact putGroupCfg_ports g v s
  | putTimerCfg t v crc => exact putTimerCfg_ports t v s
  | putMonCfg m v crc => exact putMonCfg_ports m v s
  | putCmtCfg g v crc => exact putCmtCfg_ports g v s
  | activate arg crc => exact ite_ports (.refl s) (ite_ports (.refl s) (.of_view rfl))
  | bypass arg crc => exact bypassAction_ports arg s
  | softReset arg crc => exact ite_ports (.refl s) (softReset_ports s)
  | enableGroup arg crc => exact withIndex_ports enableAction_ports arg s
  | disableGroup arg crc => exact withIndex_ports disableAction_ports arg s
  | sealGroup arg crc => exact withIndex_ports sealAction_ports arg s
  | discard arg crc => exact withIndex_ports discardAction_ports arg s
  | clearFault arg crc => exact withIndex_ports (fun _ _ => .of_view rfl) arg s
  | timerStart arg crc => exact withIndex_ports timerStartAction_ports arg s
  | timerStop arg crc => exact withIndex_ports timerStopAction_ports arg s
  | timerPreset arg crc => exact withIndex_ports (fun t s => modTimer_ports t _ s) arg s
  | setCmt arg crc => exact setCmtAction_ports arg s
  | _ => exact .of_view rfl

theorem takeRequest_ports (c : Instr) (body : List Byte) (crc : Byte) (s : State) :
    PortsKept s (takeRequest body crc (requestOp c) s) := by
  unfold takeRequest
  split
  · exact (requestOp_ports c s).trans (.of_view rfl)
  · exact .of_view rfl

/-- A byte clocked in keeps the law, also when it completes a request (R164, R165). -/
theorem clockByte_ports (b : Byte) (s : State) : PortsKept s (clockByte b s) := by
  have take : ∀ bytes, PortsKept s (takeBytes bytes s) := by
    intro bytes
    unfold takeBytes
    split
    next c _ => exact takeRequest_ports c _ _ s
    next => exact .refl s
  unfold clockByte
  split
  · exact .refl s
  · exact .refl s
  · unfold receiveRequestByte
    split
    · exact take _
    · exact .of_view rfl
  · exact .of_view rfl
  · exact .of_view rfl

theorem startFrame_ports (s : State) : PortsKept s (startFrame s) := by
  unfold startFrame
  split
  · split <;> exact .of_view rfl
  all_goals exact .refl s

theorem endFrame_ports (s : State) : PortsKept s (endFrame s) := by
  unfold endFrame
  split
  case h_5 => exact .refl s
  all_goals exact .of_view rfl

theorem exec_request_ports {c : Instr} {body : List Byte} {s t : State} (hb : c.requestBody = some body)
    (h : exec c s = .next t) : PortsKept s t := by
  rcases exec_request hb s with he | he <;> rw [he] at h <;> cases h
  · exact .refl s
  · unfold requestArrives
    split
    · exact takeRequest_ports c body _ s
    · exact .refl s

/-! ### Every command -/

theorem exec_ports {c : Instr} {s t : State} (h : exec c s = .next t) : PortsKept s t := by
  cases c with
  | powerOn => cases h; exact hardReset_ports s
  | rstnAssert => cases h; exact hardReset_ports s
  | rstnRelease => cases h; exact releaseReset_ports s
  | requestAccept p r => cases h; exact arrive_ports p r s
  | headProcessing p => cases h; exact processHead_ports p s
  | memoryGrant => cases h; exact grant_ports s
  | memoryAnswer a data => cases h; exact takeAnswer_ports a data s
  | drainStart => cases h; exact testStart_ports s
  | responseDelivery p => cases h; exact deliver_ports p s
  | holdTimerExpiry => cases h; exact expireHold_ports s
  | serviceTick order => cases h; exact serviceTick_ports order s
  | timerStep i => exact execTimerStep_ports h
  | pulseEnd g => cases h; exact .of_view rfl
  | syncTransition i level => cases h; exact syncSettles_ports i level s
  | choldChange asserted => cases h; exact choldSet_ports asserted s
  | frameStart => cases h; exact startFrame_ports s
  | frameEnd => cases h; exact endFrame_ports s
  | requestByteReceived b => cases h; exact clockByte_ports b s
  | _ => exact exec_request_ports rfl h

/-- Settles O57: every command keeps the law, and so does every edge of REFCLK. -/
theorem stepsKeepThePorts : Obligations.StepsKeepThePorts := fun _ _ hs h =>
  step_of_exec (P := PortsSound) (fun _ _ => id) refclkEdge_ports (fun hs h => exec_ports h hs) hs h

end Sys2Proof.Machine

namespace Sys2Proof.Machine

/-! ## REQUEST_ACCEPT (R123, R139) -/

theorem arrive_spec (p : PortId) (r : Request) (s : State) :
    (s.inReset = true → arrive p r s = s.setPort p { s.port p with offered := (s.port p).offered ++ [r] }) ∧
    (s.inReset = false →
      arrive p r s = s.setPort p (acceptOffered ((s.port p).offered ++ [r]) (s.port p))) :=
  ⟨fun h => by simp [arrive, h], fun h => by simp [arrive, h]⟩

/-- A request alone is accepted into a free slot (R123). -/
theorem acceptOffered_single {p : Port} (r : Request) (hroom : p.slots.length < 4) (hoff : p.offered = []) :
    acceptOffered [r] p = p.accept r := by
  rw [acceptOffered_room hroom, acceptOffered_nil, ← hoff]
  rfl

/-- Settles O7: the three cases of an arrival, each with what the port accepts of the requests offered to it. -/
theorem requestAcceptFillsAFreeSlot : Obligations.RequestAcceptFillsAFreeSlot := by
  intro s p r
  obtain ⟨held, released⟩ := arrive_spec p r s
  refine ⟨fun hr => congrArg Host.Outcome.next (held hr), fun hr hfull => congrArg Host.Outcome.next ?_,
    fun hr hroom hoff => ⟨freeSlot (s.port p).slots, freeSlot_free hroom, congrArg Host.Outcome.next ?_⟩⟩
  · rw [released hr, acceptOffered_full hfull]
  · rw [released hr, hoff, List.nil_append, acceptOffered_single r hroom hoff]
    rfl

/-! ## RESPONSE_DELIVERY (R123, R126) -/

theorem causeOf_setPort (c : RespCode) (p : PortId) (x : Port) (s : State) :
    causeOf c (s.setPort p x) = (causeOf c s).setPort p x := by
  unfold causeOf
  split <;> cases p <;> rfl

theorem deliver_unanswered {p : PortId} {s : State}
    (h : ∀ sl ∈ (s.port p).slots.head?.toList, ∀ resp, sl.phase ≠ .answered resp) : deliver p s = s := by
  unfold deliver
  split
  · rfl
  next sl rest hslots =>
    split
    next resp hph => exact absurd hph (h sl (by simp [hslots]) resp)
    all_goals rfl

theorem exec_delivery_answered {p : PortId} {s : State} {i : Fin 4} {q : Request} {resp : Response} {rest : List Slot}
    (h : (s.port p).slots = ⟨i, q, .answered resp⟩ :: rest) : exec (.responseDelivery p) s =
      .next ((causeOf resp.code s).setPort p
        (acceptOffered (s.port p).offered ⟨rest, (s.port p).offered, some resp⟩)) := by
  rw [← causeOf_setPort]
  simp only [exec, execResponseDelivery, deliver, h]

/-- One free slot takes the first of the offered requests, and the others go on waiting (R123). -/
theorem acceptOffered_one {p : Port} {r : Request} (more : List Request) (h : p.slots.length = 3) :
    acceptOffered (r :: more) p = { p.accept r with offered := more } := by
  rw [acceptOffered_room (by omega), acceptOffered_full (by simp [Port.accept, h])]

/-- Settles O8: an answered oldest slot is freed, and the port accepts what waits for the place. -/
theorem responseDeliveryFreesTheOldestSlot : Obligations.ResponseDeliveryFreesTheOldestSlot := by
  intro s p
  refine ⟨fun h => congrArg Host.Outcome.next (deliver_unanswered h), fun i q resp rest flagged hslots hflag => ?_⟩
  obtain rfl : flagged = causeOf resp.code s := hflag.trans (by cases resp.code <;> rfl)
  refine ⟨fun hoff => ?_, fun r more hoff hlength => ⟨freeSlot rest, freeSlot_free (by omega), ?_⟩⟩ <;>
    rw [exec_delivery_answered hslots, hoff]
  · rfl
  · rw [acceptOffered_one more hlength]
    rfl

end Sys2Proof.Machine

namespace Sys2Proof.Machine

/-! ## Pass-through and stray answers (R128, R132, R133, R138) -/

/-- The answer of the oldest record, when it is one of port `p`, goes to its slot (R132). -/
theorem exec_portAnswer {s : State} {p : PortId} {x : IssueRec} {rest : List IssueRec} {i : Fin 4} {q : Request}
    {l1 l2 : List Slot} (a : AnswerStatus) (data : List Word) (hi : s.issue = x :: rest)
    (hr : x.requester = PortId.requester p) (ho : x.orphan = false) (hs : x.slot = some i)
    (hl : (s.port p).slots = l1 ++ ⟨i, q, .issued⟩ :: l2) (hid : ∀ sl ∈ l1 ++ l2, sl.id ≠ i) :
    exec (.memoryAnswer a data) s = .next (({ s with issue := rest } : State).setPort p { s.port p with
      slots := l1 ++ ⟨i, q, .answered (recordResponse x a data)⟩ :: l2 }) := by
  rw [← map_answer_split q _ hid, ← hl]
  cases p <;> simp [exec, execMemoryAnswer, takeAnswer, hi, routeAnswer, ho, hr, PortId.requester, answerPort, hs,
    departRecord, State.setPort, State.port]

theorem passResponse_eq (r : Request) (a : AnswerStatus) (data : List Word) :
    passResponse r a data = if a = .error then ⟨.memory, []⟩
      else if r.kind = .read then ⟨.ok, (List.range r.count.toNat).map fun k => data.getD k Word.zero⟩
      else ⟨.ok, []⟩ := by
  cases a with
  | error => rfl
  | ok => cases hk : r.kind <;> simp [passResponse, hk, fitBeats]

/-- An orphan's answer leaves the list, and nothing else takes it (R138). -/
theorem exec_orphanAnswer {s : State} {x : IssueRec} {rest : List IssueRec} (a : AnswerStatus) (data : List Word)
    (hi : s.issue = x :: rest) (ho : x.orphan = true) :
    exec (.memoryAnswer a data) s = .next (departRecord x rest s) := by
  simp [exec, execMemoryAnswer, takeAnswer, hi, routeAnswer, ho]

/-- Settles O18: an answer goes to the slot its record names, an orphan's to none, and without a record it is
discarded. -/
theorem passThroughAndStrayAnswersAreRouted : Obligations.PassThroughAndStrayAnswersAreRouted := by
  refine ⟨fun s p x rest i q l1 l2 a data hi hr ho hsnap hs hl hid => ?_, fun s a data => ⟨fun hi => ?_,
    fun x rest hi ho => ⟨fun hr => ?_, fun hr => ?_⟩⟩⟩
  · rw [exec_portAnswer a data hi hr ho hs hl hid, recordResponse, hsnap, ← passResponse_eq]
  · simp [exec, execMemoryAnswer, takeAnswer, hi]
  · rw [exec_orphanAnswer a data hi ho, departRecord, if_neg hr]
  · rw [exec_orphanAnswer a data hi ho, departRecord, if_pos hr]

end Sys2Proof.Machine

namespace Sys2Proof.Machine

/-! ## Who waits for the grant (R65, R66, R94, R127) -/

theorem waits_hp {s : State} : waits s .hp = true ↔ ∃ x, (s.port .hp).memoryHead = some x := Option.isSome_iff_exists

theorem waits_cp {s : State} :
    waits s .cp = true ↔ ∃ x, (s.port .cp).memoryHead = some x ∧ fenced s x.1.req = false := by
  simp only [waits, State.port, Option.any_eq_true, Bool.not_eq_true']

theorem waits_ce {s : State} : waits s .ce = true ↔ (∃ e, engineOffer s = some e) ∧ s.engine.writeCount < 4 := by
  simp only [waits, Bool.and_eq_true, Option.isSome_iff_exists, decide_eq_true_eq]
  rfl

theorem waits_hp_iff (s : State) : waits s .hp = true ↔ ∃ r, NeedsMemory s .hp r := by
  simp only [waits_hp, ← memoryHead_iff]
  exact ⟨fun ⟨x, hx⟩ => ⟨_, x, hx, rfl⟩, fun ⟨_, x, hx, _⟩ => ⟨x, hx⟩⟩

theorem waits_cp_iff (s : State) : waits s .cp = true ↔ ∃ r, NeedsMemory s .cp r ∧ fenced s r = false := by
  simp only [waits_cp, ← memoryHead_iff]
  exact ⟨fun ⟨x, hx, hf⟩ => ⟨_, ⟨x, hx, rfl⟩, hf⟩, fun ⟨_, ⟨x, hx, he⟩, hf⟩ => ⟨x, hx, he ▸ hf⟩⟩

/-- The engine has an entry to offer (R65): a member of the *retry list*, or with an empty list an entry not issued. -/
theorem engineOffer_some_iff (s : State) : (∃ e, engineOffer s = some e) ↔
    ∃ g : Fin 4, s.engine.state = .draining g ∧
      ((∃ (a : Addr) (more : List Addr), s.engine.retry = a :: more ∧
          ∃ e ∈ s.queue, e.group = g ∧ e.role = .sealed ∧ e.addr = a) ∨
        (s.engine.retry = [] ∧ ∃ e ∈ s.queue, e.group = g ∧ e.role = .sealed ∧ e.issue = .notIssued)) := by
  rw [← Option.isSome_iff_exists, engineOffer]
  cases hs : s.engine.state with
  | idle => simp
  | draining g =>
    cases hr : s.engine.retry with
    | nil => simp [and_assoc]
    | cons a more =>
      have hat : ∀ e : Entry, e.at g .sealed a = true ↔ e.group = g ∧ e.role = .sealed ∧ e.addr = a := fun e => by
        simp [Entry.at, and_assoc]
      simp only [List.find?_isSome, hat]
      constructor
      · exact fun h => ⟨g, rfl, .inl ⟨a, more, rfl, h⟩⟩
      · rintro ⟨_, hg, ⟨_, _, hl, h⟩ | ⟨hl, -⟩⟩ <;> cases hg <;> cases hl
        exact h

/-! ## The rotation (R134, R135) -/

/-- The first waiting requester of the order of preference is granted (R134). -/
theorem chosen_first {s : State} {a b c w : Requester} (hr : s.inReset = false) (hroom : s.issue.length < 8)
    (horder : preference s.pointer = [a, b, c]) (hw : w = if waits s a then a else if waits s b then b else c)
    (hwaits : waits s w = true) : chosen s = some w := by
  subst hw
  rw [chosen, if_pos ⟨hr, hroom⟩, horder]
  by_cases ha : waits s a = true
  · simp [ha]
  by_cases hb : waits s b = true
  · simp [ha, hb]
  · simp only [ha, hb, Bool.false_eq_true, if_false] at hwaits
    simp [ha, hb, hwaits]

theorem grant_held {s : State} (h : s.inReset = true ∨ 8 ≤ s.issue.length ∨ ∀ x, waits s x = false) : grant s = s := by
  rcases h with h | h | h
  · simp [grant, chosen, h]
  · simp [grant, chosen, Config.issueSize, Nat.not_lt.mpr h]
  · exact grant_none h

theorem grant_port {s : State} {p : PortId} {sl : Slot} {f : Bool} (hc : chosen s = some (PortId.requester p))
    (hm : (s.port p).memoryHead = some (sl, f)) : grant s = grantPort p sl f s := by
  cases p
  · have hhp : s.hp.memoryHead = some (sl, f) := hm
    have hchosen : chosen s = some .hp := hc
    simp only [grant, hchosen, hhp]
  · have hcp : s.cp.memoryHead = some (sl, f) := hm
    have hchosen : chosen s = some .cp := hc
    simp only [grant, hchosen, hcp]

/-- What a grant to requester `w` does to the pointer and the issue list (R131, R135). -/
def GrantsTo (w : Requester) (s t : State) : Prop :=
  ∃ x : IssueRec, t.pointer = w ∧ t.issue = s.issue ++ [x] ∧ x.requester = w ∧ x.orphan = false

theorem grantPort_grants (p : PortId) (sl : Slot) (f : Bool) (s : State) :
    GrantsTo (PortId.requester p) s (grantPort p sl f s) :=
  ⟨portRecord p sl f s, by simp [grantPort, State.placeRecord], congrArg Prod.fst (grantPort_view p sl f s), rfl, rfl⟩

theorem grantEngine_grants (e : Entry) (s : State) : GrantsTo .ce s (grantEngine e s) :=
  ⟨commitRecord e, by simp [grantEngine], congrArg Prod.fst (grantEngine_view e s), rfl, rfl⟩

/-- The requester that is chosen waits, so it has something to place. -/
theorem grant_grants {s : State} {w : Requester} (hc : chosen s = some w) : GrantsTo w s (grant s) := by
  have hwaits := chosen_waits hc
  cases w with
  | hp =>
    obtain ⟨⟨sl, f⟩, hm⟩ := waits_hp.mp hwaits
    rw [grant_port (p := .hp) hc hm]
    exact grantPort_grants .hp sl f s
  | cp =>
    obtain ⟨⟨sl, f⟩, hm, -⟩ := waits_cp.mp hwaits
    rw [grant_port (p := .cp) hc hm]
    exact grantPort_grants .cp sl f s
  | ce =>
    obtain ⟨⟨e, ho⟩, -⟩ := waits_ce.mp hwaits
    rw [grant_engine hc ho]
    exact grantEngine_grants e s

/-- Settles O15: who waits, who is first in the rotation, and what the grant of a port's head places. -/
theorem memoryGrantRotatesAndPlaces : Obligations.MemoryGrantRotatesAndPlaces := by
  refine ⟨fun s => ⟨waits_hp_iff s, fun hw => ?_, ?_⟩,
    fun s => ⟨fun h => congrArg Host.Outcome.next (grant_held h), fun a b c w horder hw hr hroom hwaits => ?_⟩,
    fun s p i r cls hc => ⟨fun hh => congrArg Host.Outcome.next ?_, fun hh => congrArg Host.Outcome.next ?_⟩⟩
  · simp only [waits_cp_iff, ← fenced_iff hw, Bool.not_eq_true]
  · rw [← engineOffer_some_iff, waits_ce, and_comm]
  · have hpreference : preference s.pointer = [a, b, c] := by
      rcases horder with ⟨hp, rfl, rfl, rfl⟩ | ⟨hp, rfl, rfl, rfl⟩ | ⟨hp, rfl, rfl, rfl⟩ <;> rw [hp] <;> rfl
    have hc := chosen_first hr hroom hpreference hw hwaits
    obtain ⟨x, hpointer, hissue, hx, horphan⟩ := grant_grants hc
    exact ⟨grant s, x, rfl, hc, hpointer, hissue, hx, horphan⟩
  · have hm : (s.port p).memoryHead = some (⟨i, r, .head cls .passThrough⟩, false) := by simp [Port.memoryHead, hh]
    exact grant_port hc hm
  · have hm : (s.port p).memoryHead = some (⟨i, r, .head cls .forwarded⟩, true) := by simp [Port.memoryHead, hh]
    exact grant_port hc hm

end Sys2Proof.Machine

namespace Sys2Proof.Machine

/-! ## What the monitors make of the request at a port head (R143 to R149) -/

/-- The word address of an address, as a number (R143). -/
theorem wordAddress_eq (a : Addr) : wordAddress a = BitVec.ofNat 32 (a.toNat / 4 * 4) := by
  have hshift : wordAddress a = (a >>> 2) <<< 2 := by
    ext i hi
    have hmask : (3#32)[i] = decide (i < 2) := Nat.testBit_two_pow_sub_one 2 i
    rw [wordAddress, BitVec.getElem_and, BitVec.getElem_not, hmask, BitVec.getElem_shiftLeft]
    by_cases h : i < 2
    · simp [h]
    · simp [h, Nat.add_sub_cancel' (Nat.le_of_not_lt h), BitVec.getLsbD_eq_getElem hi]
  rw [hshift]
  refine BitVec.eq_of_toNat_eq ?_
  simp [Nat.shiftRight_eq_div_pow, Nat.shiftLeft_eq]

/-- The words a monitor sees of a request, as numbers (R143). -/
theorem monitoredWords_eq (r : Request) : monitoredWords r =
    (List.range (if r.count.toNat = 0 then 1 else r.count.toNat)).map
      (fun k => BitVec.ofNat 32 (r.addr.toNat / 4 * 4 + 4 * k)) := by
  simp only [monitoredWords, wordsFrom, wordAddress_eq, bitVec_eq_zero_iff, BitVec.ofNat_add]

/-- What `MonitorsSee` reads of the state after an access. -/
def State.watched (s : State) : Four Monitor × EventBlock := (s.monitors, s.events)

theorem MonitorsSee.of_watched {stream : Requester} {k : Kind} {words : List Addr} {s t u : State}
    (h : u.watched = t.watched) (hsee : MonitorsSee stream k words s t) : MonitorsSee stream k words s u := by
  obtain ⟨hm, he⟩ : u.monitors = t.monitors ∧ u.events = t.events := Prod.mk.inj h
  unfold MonitorsSee at hsee ⊢
  simpa only [hm, he] using hsee

theorem setHead_watched (p : PortId) (ph : SlotPhase) (s : State) : (s.setHead p ph).watched = s.watched := by
  cases p <;> rfl

theorem handleHost_watched (cls : ReqClass) (r : Request) (s : State) : (handleHost cls r s).watched = s.watched := by
  have offered : ∀ g policy, (offerAdmission cls g policy r s).watched = s.watched := by
    intro g policy
    unfold offerAdmission
    split <;> exact setHead_watched _ _ _
  unfold handleHost
  repeat' split
  any_goals exact setHead_watched _ _ s
  all_goals exact offered _ _

theorem handleConsumer_watched (cls : ReqClass) (r : Request) (s : State) :
    (handleConsumer cls r s).watched = s.watched := by
  unfold handleConsumer
  repeat' split
  all_goals exact setHead_watched _ _ s

/-- The examination of a request touches no monitor and causes no flag: the monitors see it before (R124, R144). -/
theorem examine_watched (p : PortId) (r : Request) (s : State) : (examine p r s).watched = s.watched := by
  unfold examine
  split
  · exact setHead_watched p _ s
  · cases p with
    | hp => exact handleHost_watched _ r s
    | cp => exact handleConsumer_watched _ r s

/-- Settles O14: the monitors see the request, its examination leaves what they made of it, and a cause touches its own
flag alone. -/
theorem monitorsSeeTheHeadRequest : Obligations.MonitorsSeeTheHeadRequest := by
  refine ⟨fun s p i r h => ⟨_, exec_headProcessing h, ?_⟩, fun e f k =>
    ⟨e.isSet_cause k f, e.mark_cause k f, e.enable_cause f⟩⟩
  rw [← monitoredWords_eq]
  exact .of_watched (examine_watched p r _) (observe_sees _ _ _ s)

end Sys2Proof.Machine

namespace Sys2Proof.Machine

/-! ## PUT of MON_CFG_m (R142) -/

/-- The check of R142. -/
def BadMonCfg (v : MonCfgRaw) : Prop :=
  v.low.toNat % 4 ≠ 0 ∨ v.high.toNat % 4 ≠ 0 ∨ v.high.toNat < v.low.toNat ∨ 7 < v.streams.toNat ∨
    3 < v.kinds.toNat ∨ 3 < v.stamp.toNat

/-- The configuration a PUT carries, with its stamp group given as a number. -/
def rawMonCfg (v : MonCfgRaw) (g : Fin 4) : MonCfg where
  enabled := decide (v.enabled.toNat ≠ 0)
  low := v.low
  high := v.high
  streams := ⟨v.streams.getLsbD 0, v.streams.getLsbD 1, v.streams.getLsbD 2⟩
  kinds := ⟨v.kinds.getLsbD 0, v.kinds.getLsbD 1⟩
  stamp := g

/-- The test for a word address, in the terms of the statements. -/
theorem lowBits_ne_zero_iff (a : Addr) : a &&& 3#32 ≠ 0 ↔ a.toNat % 4 ≠ 0 := by
  have hlow : (a &&& 3#32).toNat = a.toNat % 4 := by
    rw [BitVec.toNat_and]
    exact Nat.and_two_pow_sub_one_eq_mod _ 2
  rw [ne_eq, bitVec_eq_zero_iff, hlow]

theorem StreamSet.ofByte_none {b : Byte} (h : 7 < b.toNat) : StreamSet.ofByte b = none := if_neg (by omega)

theorem StreamSet.ofByte_some {b : Byte} (h : ¬ 7 < b.toNat) :
    StreamSet.ofByte b = some ⟨b.getLsbD 0, b.getLsbD 1, b.getLsbD 2⟩ := if_pos (by omega)

theorem KindSet.ofByte_none {b : Byte} (h : 3 < b.toNat) : KindSet.ofByte b = none := if_neg (by omega)

theorem KindSet.ofByte_some {b : Byte} (h : ¬ 3 < b.toNat) :
    KindSet.ofByte b = some ⟨b.getLsbD 0, b.getLsbD 1⟩ := if_pos (by omega)

/-- A PUT of a monitor configuration that fails the check of R142 carries no configuration. -/
theorem monCfgOfRaw_bad {v : MonCfgRaw} (h : BadMonCfg v) : monCfgOfRaw v = none := by
  unfold monCfgOfRaw
  split
  next => rfl
  next hr =>
    simp only [lowBits_ne_zero_iff, not_or] at hr
    obtain ⟨hl, hh, ho⟩ := hr
    have hcode : 7 < v.streams.toNat ∨ 3 < v.kinds.toNat ∨ 3 < v.stamp.toNat := by
      unfold BadMonCfg at h
      omega
    rcases hcode with hs | hk | hg
    · rw [StreamSet.ofByte_none hs]
    · rw [KindSet.ofByte_none hk]; cases StreamSet.ofByte v.streams <;> rfl
    · rw [index4_none hg]; cases StreamSet.ofByte v.streams <;> cases KindSet.ofByte v.kinds <;> rfl

/-- A PUT of a monitor configuration that passes the check of R142 carries all six fields. -/
theorem monCfgOfRaw_good {v : MonCfgRaw} (h : ¬ BadMonCfg v) {g : Fin 4} (hg : v.stamp.toNat = g.val) :
    monCfgOfRaw v = some (rawMonCfg v g) := by
  simp only [BadMonCfg, not_or] at h
  obtain ⟨hl, hh, ho, hs, hk, -⟩ := h
  unfold monCfgOfRaw
  rw [if_neg (by simp only [lowBits_ne_zero_iff]; omega), StreamSet.ofByte_some hs, KindSet.ofByte_some hk,
    index4_some hg, yes_eq]
  rfl

theorem exec_putMonCfg {s : State} {m : Fin 4} {v : MonCfgRaw} {crc : Byte}
    (h : RequestReady s (0x02 :: BitVec.ofNat 8 (0x40 + m.val) :: v.toBytes) crc) :
    exec (.putMonCfg m v crc) s = .next (replied (putMonCfg m v s).reply.bytes (putMonCfg m v s).state) :=
  exec_ready (c := .putMonCfg m v crc) rfl rfl h

/-- Settles O43: each clause is one branch of the PUT. -/
theorem putMonCfgChecksAndClears : Obligations.PutMonCfgChecksAndClears := by
  intro s m v crc bad h hbad
  change (bad ↔ BadMonCfg v) at hbad
  rw [hbad, exec_putMonCfg h]
  refine ⟨fun hb => ?_, fun hb g hg => ?_⟩
  · have hput : putMonCfg m v s = refuse .badValue s := by simp only [putMonCfg, monCfgOfRaw_bad hb]
    rw [hput]
    rfl
  · have hput : putMonCfg m v s =
        done { s with monitors := s.monitors.set m (Monitor.fresh (rawMonCfg v g)) } := by
      simp only [putMonCfg, monCfgOfRaw_good hb hg]
    rw [hput]
    rfl

end Sys2Proof.Machine

namespace Sys2Proof.Machine

/-! ## Commit lines (R152, R153, R157) -/

/-- The check of R157. -/
def BadCmtCfg (v : CmtCfgRaw) : Prop := v.width.toNat = 0 ∨ 3 < v.mode.toNat ∨ 1 < v.polarity.toNat

/-- The line mode a PUT carries. -/
def rawLineMode (v : CmtCfgRaw) : LineMode :=
  if v.mode.toNat = 0 then .level else if v.mode.toNat = 1 then .pulse
  else if v.mode.toNat = 2 then .toggle else .busy

/-- The polarity a PUT carries. -/
def rawPolarity (v : CmtCfgRaw) : Polarity := if v.polarity.toNat = 0 then .activeHigh else .activeLow

theorem LineMode.ofByte_none {b : Byte} : LineMode.ofByte b = none ↔ 3 < b.toNat := by
  revert b; decide

theorem LineMode.ofByte_some {b : Byte} (h : ¬ 3 < b.toNat) : LineMode.ofByte b =
    some (if b.toNat = 0 then .level else if b.toNat = 1 then .pulse
      else if b.toNat = 2 then .toggle else .busy) := by
  revert b; decide

theorem Polarity.ofByte_none {b : Byte} : Polarity.ofByte b = none ↔ 1 < b.toNat := by
  revert b; decide

theorem Polarity.ofByte_some {b : Byte} (h : ¬ 1 < b.toNat) :
    Polarity.ofByte b = some (if b.toNat = 0 then .activeHigh else .activeLow) := by
  revert b; decide

/-- A PUT of a line configuration that fails the check of R157 is refused. -/
theorem putCmtCfg_bad {g : Fin 4} {v : CmtCfgRaw} (h : BadCmtCfg v) (s : State) :
    putCmtCfg g v s = refuse .badValue s := by
  unfold putCmtCfg
  rcases h with hw | hm | hp
  · split
    · exact if_pos ((bitVec_eq_zero_iff _).mpr hw)
    · rfl
  · rw [LineMode.ofByte_none.mpr hm]
  · rw [Polarity.ofByte_none.mpr hp]
    cases LineMode.ofByte v.mode <;> rfl

/-- A PUT of a line configuration that passes the check of R157 configures the line. -/
theorem putCmtCfg_good {g : Fin 4} {v : CmtCfgRaw} (h : ¬ BadCmtCfg v) (s : State) : putCmtCfg g v s =
    done (s.modLine g (Line.configure (rawLineMode v) (rawPolarity v) v.width.toNat)) := by
  simp only [BadCmtCfg, not_or] at h
  obtain ⟨hw, hm, hp⟩ := h
  unfold putCmtCfg
  rw [LineMode.ofByte_some hm, Polarity.ofByte_some hp]
  exact if_neg ((bitVec_eq_zero_iff _).not.mpr hw)

/-- A taken PUT, field by field: only a change of mode moves the *logic level* and the countdown (R157; log entry 25). -/
theorem Line.configure_eq (mode : LineMode) (polarity : Polarity) (width : Nat) (x : Line) :
    x.configure mode polarity width = { x with
      mode := mode
      polarity := polarity
      width := width
      logic := if mode = x.mode then x.logic else if mode = .level then x.software else false
      countdown := if mode = x.mode then x.countdown else 0 } := by
  unfold Line.configure
  by_cases h : mode = x.mode
  · simp [h]
  · simp only [if_neg h]
    cases mode <;> rfl

/-- SET_CMT, field by field (R153). -/
theorem Line.setSoftware_eq (level : Bool) (x : Line) : x.setSoftware level =
    { x with software := level, logic := if x.mode = .level then level else x.logic } := by
  unfold Line.setSoftware
  cases x.mode <;> rfl

theorem Line.pin_activeHigh {x : Line} (h : x.polarity = .activeHigh) : x.pin = x.logic := by
  unfold Line.pin
  rw [h]

theorem Line.pin_activeLow {x : Line} (h : x.polarity = .activeLow) : x.pin = !x.logic := by
  unfold Line.pin
  rw [h]

/-- The argument of SET_CMT names the group in its low half and the level in its high half (R175). -/
theorem setCmtArg_some {arg : Byte} {g : Fin 4} (hg : arg.toNat % 16 = g.val) (hlevel : arg.toNat / 16 ≤ 1) :
    setCmtArg arg = some (g, decide (arg.toNat / 16 = 1)) := by
  have hlow : (arg &&& 0x0F).toNat = g.val := by
    rw [BitVec.toNat_and, ← hg]
    exact Nat.and_two_pow_sub_one_eq_mod _ 4
  have hhigh : (arg >>> 4).toNat = arg.toNat / 16 := by
    rw [BitVec.toNat_ushiftRight, Nat.shiftRight_eq_div_pow]
  unfold setCmtArg
  rw [index4_some hlow]
  dsimp only
  rcases Nat.le_one_iff_eq_zero_or_eq_one.mp hlevel with h | h
  · rw [if_pos ((bitVec_eq_zero_iff _).mpr (hhigh.trans h)), h]
    rfl
  · have hone : arg >>> 4 = 1 := BitVec.eq_of_toNat_eq (hhigh.trans h)
    rw [hone, if_neg (by decide), if_pos rfl, h]
    rfl

theorem State.modLine_eq (g : Fin 4) (f : Line → Line) (s : State) :
    s.modLine g f = { s with lines := s.lines.set g (f (s.lines.get g)) } := rfl

theorem exec_putCmtCfg {s : State} {g : Fin 4} {v : CmtCfgRaw} {crc : Byte}
    (h : RequestReady s (0x02 :: BitVec.ofNat 8 (0x50 + g.val) :: v.toBytes) crc) :
    exec (.putCmtCfg g v crc) s = .next (replied (putCmtCfg g v s).reply.bytes (putCmtCfg g v s).state) :=
  exec_ready (c := .putCmtCfg g v crc) rfl rfl h

theorem exec_setCmt {s : State} {arg crc : Byte} (h : RequestReady s [0x03, 0x30, arg] crc) :
    exec (.setCmt arg crc) s = .next (replied (setCmtAction arg s).reply.bytes (setCmtAction arg s).state) :=
  exec_ready (c := .setCmt arg crc) rfl rfl h

/-- Settles O44: the two branches of the PUT, the two polarities of the pin, and SET_CMT. -/
theorem commitLineRequestsSetTheLine : Obligations.CommitLineRequestsSetTheLine := by
  refine ⟨fun s g v crc mode bad h hbad hmode => ?_, fun x => ⟨Line.pin_activeHigh, Line.pin_activeLow⟩,
    fun s arg crc g h hg hlevel => ?_⟩
  · change (bad ↔ BadCmtCfg v) at hbad
    change mode = rawLineMode v at hmode
    subst hmode
    rw [hbad, exec_putCmtCfg h]
    refine ⟨fun hb => ?_, fun hb => ?_⟩
    · rw [putCmtCfg_bad hb]
      rfl
    · rw [putCmtCfg_good hb, State.modLine_eq, Line.configure_eq]
      rfl
  · have hset : setCmtAction arg s = done (s.modLine g (Line.setSoftware (decide (arg.toNat / 16 = 1)))) := by
      simp only [setCmtAction, setCmtArg_some hg hlevel]
    rw [exec_setCmt h, hset, State.modLine_eq, Line.setSoftware_eq]
    rfl

end Sys2Proof.Machine

namespace Sys2Proof.Machine

/-! ## The edges of MCSn (R159, R163, R169, R170) -/

/-- A fall of MCSn starts a frame, which RSTn has ignored (R163, R170). -/
theorem startFrame_idle {s : State} (h : s.mgmt.phase = .idle) : startFrame s =
    if s.inReset then { s with mgmt := ⟨.ignored, [], none, [], none⟩ }
    else { s with mgmt := ⟨.request, [], none, [], none⟩, events := { s.events with mark := 0 } } := by
  unfold startFrame
  rw [h]
  rfl

theorem startFrame_low {s : State} (h : s.mgmt.phase ≠ .idle) : startFrame s = s := by
  unfold startFrame
  split
  next hp => exact absurd hp h
  all_goals rfl

theorem endFrame_idle {s : State} (h : s.mgmt.phase = .idle) : endFrame s = s := by
  unfold endFrame
  rw [h]

/-- A short frame sets MGMT_ERROR (R169). -/
theorem endFrame_request {s : State} (h : s.mgmt.phase = .request) :
    endFrame s = ({ s with mgmt := ⟨.idle, [], none, [], none⟩ } : State).cause .mgmtError := by
  unfold endFrame
  rw [h]
  rfl

/-- A frame whose request is complete ends, and so does a low period that is ignored (R163, R170). -/
theorem endFrame_answered {s : State}
    (h : s.mgmt.phase = .reply ∨ s.mgmt.phase = .trailer ∨ s.mgmt.phase = .ignored) :
    endFrame s = { s with mgmt := ⟨.idle, [], none, [], none⟩ } := by
  unfold endFrame
  rcases h with h | h | h <;> rw [h] <;> rfl

/-- Settles O31: each clause is one phase of the link. -/
theorem framesStartAndEnd : Obligations.FramesStartAndEnd := by
  refine fun s => ⟨fun h hr => ?_, fun h hr => ?_, fun h => congrArg Host.Outcome.next (startFrame_low h),
    fun h => congrArg Host.Outcome.next (endFrame_idle h), fun h => congrArg Host.Outcome.next (endFrame_request h),
    fun h => congrArg Host.Outcome.next (endFrame_answered h)⟩
  · exact congrArg Host.Outcome.next ((startFrame_idle h).trans (if_neg (by simp [hr])))
  · exact congrArg Host.Outcome.next ((startFrame_idle h).trans (if_pos hr))

end Sys2Proof.Machine

namespace Sys2Proof.Machine

/-! ## PUT of EVENTS, EVENT_EN and DEVICE, and ATTN (R160, R161, R173) -/

/-- A PUT of EVENTS, flag by flag (R160). -/
theorem EventBlock.put_value_getLsbD (bits : BitVec 32) (e : EventBlock) {k : Nat} (h : k < 30) :
    (e.put bits).value.getLsbD k = (e.value.getLsbD k && !(bits.getLsbD k && !e.mark.getLsbD k)) := by
  simp [EventBlock.put, h]

/-- Some flag is set and enabled exactly when the two words share a bit (R161). -/
theorem EventBlock.attention_iff (e : EventBlock) :
    e.attention = true ↔ ∃ k : Nat, k < 30 ∧ e.value.getLsbD k = true ∧ e.enable.getLsbD k = true := by
  have hbits : e.value &&& e.enable = 0 ↔ ∀ k < 30, ¬ (e.value.getLsbD k = true ∧ e.enable.getLsbD k = true) := by
    simp [BitVec.eq_of_getLsbD_eq_iff]
  rw [EventBlock.attention, bne_iff_ne, ne_eq, hbits]
  simp

theorem putDevice_bad {v : DeviceRaw} (h : v.divisor.toNat = 0 ∨ 256 < v.divisor.toNat) (s : State) :
    putDevice v s = refuse .badValue s :=
  if_pos (by rwa [bitVec_eq_zero_iff])

theorem putDevice_good {v : DeviceRaw} (h1 : 1 ≤ v.divisor.toNat) (h256 : v.divisor.toNat ≤ 256) (s : State) :
    putDevice v s = done { s with tick := { s.tick with divisor := v.divisor.toNat } } :=
  if_neg (by rw [bitVec_eq_zero_iff]; omega)

theorem exec_putEvents {s : State} {v : BitVec 32} {crc : Byte}
    (h : RequestReady s (0x02 :: 0x03 :: bytes32 v) crc) :
    exec (.putEvents v crc) s = .next (replied [0xC0] { s with events := s.events.put v }) :=
  exec_ready (c := .putEvents v crc) rfl rfl h

theorem exec_putEventEn {s : State} {v : BitVec 32} {crc : Byte}
    (h : RequestReady s (0x02 :: 0x04 :: bytes32 v) crc) :
    exec (.putEventEn v crc) s = .next (replied [0xC0] { s with events := s.events.putEnable v }) :=
  exec_ready (c := .putEventEn v crc) rfl rfl h

theorem exec_putDevice {s : State} {v : DeviceRaw} {crc : Byte}
    (h : RequestReady s [0x02, 0x01, v.mode, v.divisor.extractLsb' 8 8, v.divisor.extractLsb' 0 8] crc) :
    exec (.putDevice v crc) s = .next (replied (putDevice v s).reply.bytes (putDevice v s).state) :=
  exec_ready (c := .putDevice v crc) rfl rfl h

/-- Settles O39: each PUT by its effect, and ATTN flag by flag. -/
theorem deviceAndEventPutsReplace : Obligations.DeviceAndEventPutsReplace := by
  refine ⟨fun s v crc h => ⟨(s.events.put v).value, exec_putEvents h, fun k hk => s.events.put_value_getLsbD v hk⟩,
    fun s v crc h => exec_putEventEn h, fun s => s.events.attention_iff, fun s v crc h => ?_⟩
  rw [exec_putDevice h]
  refine ⟨fun hb => ?_, fun h1 h256 => ?_⟩
  · rw [putDevice_bad hb]
    rfl
  · rw [putDevice_good h1 h256]
    rfl

end Sys2Proof.Machine

namespace Sys2Proof.Machine

/-! ## The CRC-8 and the worked frames (R165, R166, Section 10.8) -/

/-- One more byte continues the remainder (R166). -/
theorem crc8_concat (bs : List Byte) (b : Byte) : crc8 (bs ++ [b]) = crcByte (crc8 bs) b := by
  simp [crc8]

/-- A byte equal to the remainder clears it. -/
theorem crcByte_self (r : Byte) : crcByte r r = 0 := by
  rw [crcByte, BitVec.xor_self]
  rfl

/-- A sequence followed by its own CRC has CRC 0x00 (R166). -/
theorem crc8_append_crc8 (bs : List Byte) : crc8 (bs ++ [crc8 bs]) = 0 := by
  rw [crc8_concat, crcByte_self]

/-- Settles O33: the values one by one, and the general clause by the remainder's last byte. -/
theorem workedFramesAndTheirCrcs : Obligations.WorkedFramesAndTheirCrcs :=
  ⟨⟨by decide +kernel, by decide +kernel, by decide +kernel, by decide +kernel, by decide +kernel, by decide +kernel,
    crc8_append_crc8⟩,
   rfl, rfl, rfl, rfl, rfl, rfl, rfl, rfl, rfl, rfl, rfl, rfl, rfl, rfl, rfl⟩

end Sys2Proof.Machine

namespace Sys2Proof.Machine

/-! ## One byte clocked (R163, R164, R165) -/

/-- The last byte shifted out begins the trailer (R164). -/
theorem shiftReply_cons {m : Mgmt} {x : Byte} {more : List Byte} (hp : m.phase = .reply) (h : m.reply = x :: more) :
    shiftReply m = { m with
      reply := more, miso := some x, phase := if more = [] then .trailer else .reply } := by
  unfold shiftReply
  rw [h]
  cases more with
  | nil => rfl
  | cons y ys => simp [hp]

/-- Outside a frame, and in a low period that is ignored, nothing happens (R163, R170). -/
theorem clockByte_outside {s : State} (h : s.mgmt.phase = .idle ∨ s.mgmt.phase = .ignored) (b : Byte) :
    clockByte b s = s := by
  rcases h with h | h <;> simp only [clockByte, h]

theorem clockByte_request {s : State} (h : s.mgmt.phase = .request) (b : Byte) :
    clockByte b s = receiveRequestByte b s := by
  simp only [clockByte, h]

theorem clockByte_reply {s : State} (h : s.mgmt.phase = .reply) (b : Byte) :
    clockByte b s = { s with mgmt := shiftReply s.mgmt } := by
  simp only [clockByte, h]

theorem clockByte_trailer {s : State} (h : s.mgmt.phase = .trailer) (b : Byte) :
    clockByte b s = { s with mgmt := { s.mgmt with miso := some 0 } } := by
  simp only [clockByte, h]

/-- A request byte that does not complete its request is kept while 0x00 is shifted out (R164, R165). -/
theorem clockByte_incomplete {s : State} {b : Byte} {known : Option Nat} (hp : s.mgmt.phase = .request)
    (hk : lengthAfter (s.mgmt.received ++ [b]) s.mgmt.length = known)
    (hn : known ≠ some (s.mgmt.received ++ [b]).length) :
    clockByte b s = { s with mgmt := { s.mgmt with
      received := s.mgmt.received ++ [b], length := known, miso := some 0 } } := by
  subst hk
  exact (clockByte_request hp b).trans (if_neg hn)

/-- The byte that completes a request has it taken (R165, R167). -/
theorem clockByte_complete {s : State} {b : Byte} (hp : s.mgmt.phase = .request)
    (hk : lengthAfter (s.mgmt.received ++ [b]) s.mgmt.length = some (s.mgmt.received ++ [b]).length) :
    clockByte b s = takeBytes (s.mgmt.received ++ [b]) s :=
  (clockByte_request hp b).trans (if_pos hk)

/-- No request is shorter than its command, number and CRC bytes (R165). -/
theorem three_le_requestLength (cmd num : Byte) : 3 ≤ requestLength cmd num := by
  unfold requestLength
  split
  · split <;> omega
  · split <;> omega

/-- A length that the number byte has fixed stays (R165). -/
theorem lengthAfter_late {received : List Byte} (h : 3 ≤ received.length) (length : Option Nat) :
    lengthAfter received length = length := by
  unfold lengthAfter
  split
  next => simp at h
  next => rfl

theorem exec_requestByteReceived (b : Byte) (s : State) : exec (.requestByteReceived b) s = .next (clockByte b s) := rfl

/-- Settles O32: each clause is one phase of the link, and the request phase by the number of bytes received. -/
theorem clockedByteMovesThePhase : Obligations.ClockedByteMovesThePhase := by
  intro s b
  simp only [exec_requestByteReceived, Host.Outcome.next.injEq]
  refine ⟨fun h => clockByte_outside h b, fun h => clockByte_trailer h b,
    fun x more h hr => by rw [clockByte_reply h, shiftReply_cons h hr], fun h h0 hl => ?_,
    fun cmd h h1 => ?_, fun n h h2 hl hn => ?_⟩
  · have hk : lengthAfter (s.mgmt.received ++ [b]) s.mgmt.length = none := by rw [h0, hl]; rfl
    rw [clockByte_incomplete h hk nofun, h0, hl]
    rfl
  · have hk : lengthAfter (s.mgmt.received ++ [b]) s.mgmt.length = some (requestLength cmd b) := by rw [h1]; rfl
    have hshort : some (requestLength cmd b) ≠ some (s.mgmt.received ++ [b]).length := by
      have := three_le_requestLength cmd b
      simp only [h1, List.cons_append, List.nil_append, List.length_cons, List.length_nil, ne_eq, Option.some.injEq]
      omega
    rw [clockByte_incomplete h hk hshort, h1]
    rfl
  · have hk : lengthAfter (s.mgmt.received ++ [b]) s.mgmt.length = some n :=
      (lengthAfter_late (by simp; omega) _).trans hl
    have hshort : some n ≠ some (s.mgmt.received ++ [b]).length := by simp; omega
    rw [clockByte_incomplete h hk hshort, hl]

end Sys2Proof.Machine

namespace Sys2Proof.Machine

/-! ## GET (R148, R167, R168, R172) -/

theorem holdBytes_length (s : State) : s.holdBytes.length = 2 := by
  cases h : s.held with
  | none => rw [holdBytes_none h]; rfl
  | some w => rw [holdBytes_some h]; rfl

/-- A GET carries as many bytes as its object has (R172). -/
theorem objectBytes_length (o : Obj) (s : State) : (objectBytes o s).length = o.length := by
  cases o with
  | queueStat =>
    change (count16 s.queue.length ++ s.holdBytes).length = 2 + 2
    rw [List.length_append, holdBytes_length]
    rfl
  | timerCfg t =>
    change (s.timer t).cfgBytes.length = 8
    unfold Timer.cfgBytes
    cases (s.timer t).source <;> rfl
  | _ => rfl

/-- Only a capture record has a read side effect (R148, R167). -/
theorem readEffect_of_not_capture {o : Obj} (h : o.isCapture = false) (s : State) : readEffect o s = s := by
  cases o with
  | capture m => cases h
  | _ => rfl

/-- Settles O37: the reply is the object's bytes, and the read side effect that of R148. -/
theorem getReturnsTheObject : Obligations.GetReturnsTheObject := by
  refine ⟨objectBytes_length, fun o crc s ho h => ?_,
    fun m crc s h => exec_ready (c := .getCapture m crc) rfl rfl h⟩
  have hwf : (Instr.get o crc).wf = true := by simp [Instr.wf, ho]
  rw [exec_ready (c := .get o crc) rfl hwf h]
  change Host.Outcome.next (replied _ (readEffect o s)) = _
  rw [readEffect_of_not_capture ho]
  rfl

end Sys2Proof.Machine

namespace Sys2Proof.Machine

/-! ## Refusals (R167, R175) -/

/-- A request with a wrong CRC byte is answered CRC, whatever it would do (R167, check 1). -/
theorem exec_badCrc {c : Instr} {body : List Byte} {s : State} (hwf : c.wf = true) (hb : c.requestBody = some body)
    (hp : s.mgmt.phase = .request) (hr : s.mgmt.received.isPrefixOf body = true) (hc : crc8 body ≠ c.requestCrc) :
    exec c s = .next (replied [0xC6] (s.cause .mgmtError)) := by
  rw [exec_request_wf hb hwf, requestArrives_badCrc _ hp hr hc, replied_eq_startReply]

/-- A ready request that its own checks refuse with BAD_VALUE has no other effect (R167, R175). -/
theorem exec_badValue {c : Instr} {body : List Byte} {s : State} (hb : c.requestBody = some body) (hwf : c.wf = true)
    (hop : requestOp c s = refuse .badValue s) (h : RequestReady s body c.requestCrc) :
    exec c s = .next (replied [0xC2] s) := by
  rw [exec_ready hb hwf h, hop]
  rfl

/-- SET_CMT names no group above 3, and no level code above 1 (R153, R175). -/
theorem setCmtArg_none {arg : Byte} (h : 3 < arg.toNat % 16 ∨ 1 < arg.toNat / 16) : setCmtArg arg = none := by
  revert arg
  decide

/-- Settles O36: the first three checks of R167, and the argument check of each action. -/
theorem refusedRequestsChangeNothing : Obligations.RefusedRequestsChangeNothing := by
  refine ⟨fun s hp => ⟨fun c body hwf hb hr hc => exec_badCrc hwf hb hp hr hc, fun cmd num arg crc hwf h => ?_,
    fun o payload crc ho hl h => ?_⟩, fun s arg crc => ⟨fun hbad => ?_, fun hbad => ?_, fun hbad h => ?_⟩⟩
  · exact exec_ready (c := .unknownRequest cmd num arg crc) rfl hwf h
  · exact exec_ready (c := .readOnlyPut o payload crc) rfl (by simp [Instr.wf, ho, hl]) h
  · have hop (f : Fin 4 → State → Taken) : withIndex arg f s = refuse .badValue s := withIndex_none hbad f s
    exact ⟨exec_badValue (c := .enableGroup arg crc) rfl rfl (hop _),
      exec_badValue (c := .disableGroup arg crc) rfl rfl (hop _),
      exec_badValue (c := .sealGroup arg crc) rfl rfl (hop _),
      exec_badValue (c := .discard arg crc) rfl rfl (hop _),
      exec_badValue (c := .clearFault arg crc) rfl rfl (hop _),
      exec_badValue (c := .timerStart arg crc) rfl rfl (hop _),
      exec_badValue (c := .timerStop arg crc) rfl rfl (hop _),
      exec_badValue (c := .timerPreset arg crc) rfl rfl (hop _)⟩
  · exact ⟨exec_badValue (c := .activate arg crc) rfl rfl (if_pos hbad),
      exec_badValue (c := .bypass arg crc) rfl rfl (if_pos hbad),
      exec_badValue (c := .softReset arg crc) rfl rfl (if_pos hbad)⟩
  · have hop : setCmtAction arg s = refuse .badValue s := by simp only [setCmtAction, setCmtArg_none hbad]
    exact exec_badValue (c := .setCmt arg crc) rfl rfl hop h

end Sys2Proof.Machine

namespace Sys2Proof

/-! ## Fields and their bytes (R176) -/

theorem word16_bytes16 (x : BitVec 16) : word16 (x.extractLsb' 8 8) (x.extractLsb' 0 8) = x :=
  (BitVec.extractLsb'_append_extractLsb'_eq_extractLsb' rfl).trans BitVec.extractLsb'_eq_self

theorem word32_bytes32 (x : BitVec 32) :
    word32 (x.extractLsb' 24 8) (x.extractLsb' 16 8) (x.extractLsb' 8 8) (x.extractLsb' 0 8) = x := by
  have join {hi lo n : Nat} (h : hi = lo + 8) : x.extractLsb' hi n ++ x.extractLsb' lo 8 = x.extractLsb' lo (n + 8) :=
    BitVec.extractLsb'_append_extractLsb'_eq_extractLsb' h
  rw [word32, join (hi := 24) (lo := 16) rfl, join (hi := 16) (lo := 8) rfl, join (hi := 8) (lo := 0) rfl]
  exact BitVec.extractLsb'_eq_self

/-- A byte of a field, below which one more byte is joined. -/
theorem extract_append_byte {w : Nat} (x : BitVec w) (b : Byte) (k : Nat) :
    (x ++ b).extractLsb' (k + 8) 8 = x.extractLsb' k 8 :=
  BitVec.extractLsb'_append_eq_of_le (Nat.le_add_left 8 k)

theorem bytes16_word16 (a b : Byte) : bytes16 (word16 a b) = [a, b] := by
  rw [bytes16, word16, extract_append_byte a b 0, BitVec.extractLsb'_eq_self, BitVec.extractLsb'_append_eq_right]

theorem bytes32_word32 (a b c d : Byte) : bytes32 (word32 a b c d) = [a, b, c, d] := by
  rw [bytes32, word32, extract_append_byte _ d 0, extract_append_byte _ d 8, extract_append_byte _ d 16,
    extract_append_byte _ c 0, extract_append_byte _ c 8, extract_append_byte a b 0, BitVec.extractLsb'_eq_self]
  simp only [BitVec.extractLsb'_append_eq_right]

/-! ## The payloads of a PUT: a content is read from bytes exactly when they are its own (Section 10.7) -/

theorem DeviceRaw.ofBytes_eq_some {p : List Byte} {v : DeviceRaw} : DeviceRaw.ofBytes p = some v ↔ v.toBytes = p := by
  constructor
  · intro h
    unfold DeviceRaw.ofBytes at h
    split at h
    · cases h; simp only [toBytes, bytes16_word16]
    · cases h
  · rintro rfl
    simp only [toBytes, bytes16, ofBytes, word16_bytes16]

theorem eventsOfBytes_eq_some {p : List Byte} {v : BitVec 32} : eventsOfBytes p = some v ↔ bytes32 v = p := by
  constructor
  · intro h
    unfold eventsOfBytes at h
    split at h
    · cases h; exact bytes32_word32 ..
    · cases h
  · rintro rfl
    simp only [bytes32, eventsOfBytes, word32_bytes32]

theorem WindowRaw.ofBytes_eq_some {p : List Byte} {v : WindowRaw} : WindowRaw.ofBytes p = some v ↔ v.toBytes = p := by
  constructor
  · intro h
    unfold WindowRaw.ofBytes at h
    split at h
    · cases h; simp only [toBytes, bytes32_word32, List.cons_append, List.nil_append]
    · cases h
  · rintro rfl
    simp only [toBytes, bytes32, List.cons_append, List.nil_append, ofBytes, word32_bytes32]

theorem GroupCfgRaw.ofBytes_eq_some {p : List Byte} {v : GroupCfgRaw} :
    GroupCfgRaw.ofBytes p = some v ↔ v.toBytes = p := by
  constructor
  · intro h
    unfold GroupCfgRaw.ofBytes at h
    split at h
    · cases h; simp only [toBytes, bytes16_word16, List.cons_append, List.nil_append]
    · cases h
  · rintro rfl
    simp only [toBytes, bytes16, List.cons_append, List.nil_append, ofBytes, word16_bytes16]

theorem TimerCfgRaw.ofBytes_eq_some {p : List Byte} {v : TimerCfgRaw} :
    TimerCfgRaw.ofBytes p = some v ↔ v.toBytes = p := by
  constructor
  · intro h
    unfold TimerCfgRaw.ofBytes at h
    split at h
    · cases h; simp only [toBytes, bytes16_word16, List.cons_append, List.nil_append]
    · cases h
  · rintro rfl
    simp only [toBytes, bytes16, List.cons_append, List.nil_append, ofBytes, word16_bytes16]

theorem MonCfgRaw.ofBytes_eq_some {p : List Byte} {v : MonCfgRaw} : MonCfgRaw.ofBytes p = some v ↔ v.toBytes = p := by
  constructor
  · intro h
    unfold MonCfgRaw.ofBytes at h
    split at h
    · cases h; simp only [toBytes, bytes32_word32, List.cons_append, List.nil_append]
    · cases h
  · rintro rfl
    simp only [toBytes, bytes32, List.cons_append, List.nil_append, ofBytes, word32_bytes32]

theorem CmtCfgRaw.ofBytes_eq_some {p : List Byte} {v : CmtCfgRaw} : CmtCfgRaw.ofBytes p = some v ↔ v.toBytes = p := by
  constructor
  · intro h
    unfold CmtCfgRaw.ofBytes at h
    split at h
    · cases h; rfl
    · cases h
  · rintro rfl
    rfl

/-! ## Numbers of objects and codes of actions (R172, R175) -/

theorem Obj.ofNumber_number (o : Obj) : Obj.ofNumber o.number = some o := by
  cases o with
  | ident | device | queueStat | events | eventEn => rfl
  | window n => revert n; decide
  | groupCfg n | groupStat n | fault n | timerCfg n | timerStat n | monCfg n | capture n | monCount n | cmtCfg n =>
    revert n; decide

theorem Obj.number_of_ofNumber {b : Byte} {o : Obj} (h : Obj.ofNumber b = some o) : o.number = b := by
  simpa using List.find?_some h

theorem MgmtAction.ofCode_code (a : MgmtAction) : MgmtAction.ofCode a.code = some a := by
  cases a <;> rfl

theorem MgmtAction.code_of_ofCode {b : Byte} {a : MgmtAction} (h : MgmtAction.ofCode b = some a) : a.code = b := by
  simpa using List.find?_some h

/-! ## The parts of a request and the command they spell (R165, R167) -/

/-- A well-formed command has these request bytes: command byte, number byte, payload and CRC byte. -/
def Spells (cmd num : Byte) (payload : List Byte) (crc : Byte) (c : Instr) : Prop :=
  c.requestBody = some (cmd :: num :: payload) ∧ c.requestCrc = crc ∧ c.wf = true

/-- A PUT whose content is read from its payload is spelled by that payload. -/
theorem spells_put {α : Type} {f : α → Instr} {enc : α → List Byte} {read : Option α} {o : Obj}
    {payload : List Byte} {crc : Byte} {c : Instr} (hb : ∀ v, (f v).requestBody = some (cmdPut :: o.number :: enc v))
    (hc : ∀ v, (f v).requestCrc = crc) (hwf : ∀ v, (f v).wf = true)
    (hread : ∀ {v}, read = some v ↔ enc v = payload) (h : read.map f = some c) : Spells cmdPut o.number payload crc c := by
  obtain ⟨v, hv, rfl⟩ := Option.map_eq_some_iff.mp h
  exact ⟨by rw [hb v, hread.mp hv], hc v, hwf v⟩

/-- A PUT of a known object is read from the bytes that spell it. -/
theorem decodePut_sound {o : Obj} {payload : List Byte} {crc : Byte} {c : Instr}
    (h : decodePut o payload crc = some c) : Spells cmdPut o.number payload crc c := by
  unfold decodePut at h
  split at h
  next hro =>
    split at h
    next hl => cases h; exact ⟨rfl, rfl, by simp [Instr.wf, hro, hl]⟩
    next => cases h
  next =>
    cases o with
    | device => exact spells_put (fun _ => rfl) (fun _ => rfl) (fun _ => rfl) DeviceRaw.ofBytes_eq_some h
    | events => exact spells_put (fun _ => rfl) (fun _ => rfl) (fun _ => rfl) eventsOfBytes_eq_some h
    | eventEn => exact spells_put (fun _ => rfl) (fun _ => rfl) (fun _ => rfl) eventsOfBytes_eq_some h
    | window n => exact spells_put (fun _ => rfl) (fun _ => rfl) (fun _ => rfl) WindowRaw.ofBytes_eq_some h
    | groupCfg g => exact spells_put (fun _ => rfl) (fun _ => rfl) (fun _ => rfl) GroupCfgRaw.ofBytes_eq_some h
    | timerCfg t => exact spells_put (fun _ => rfl) (fun _ => rfl) (fun _ => rfl) TimerCfgRaw.ofBytes_eq_some h
    | monCfg m => exact spells_put (fun _ => rfl) (fun _ => rfl) (fun _ => rfl) MonCfgRaw.ofBytes_eq_some h
    | cmtCfg g => exact spells_put (fun _ => rfl) (fun _ => rfl) (fun _ => rfl) CmtCfgRaw.ofBytes_eq_some h
    | _ => cases h

/-- An action is spelled by its code and its argument. -/
theorem MgmtAction.spells_command (a : MgmtAction) (arg crc : Byte) :
    Spells cmdDo a.code [arg] crc (a.command arg crc) := by
  cases a <;> exact ⟨rfl, rfl, rfl⟩

/-- A request that names nothing is spelled by its own bytes. -/
theorem spells_unknown {cmd num : Byte} {arg : Option Byte} (crc : Byte) (hhead : unknownHead cmd num = true)
    (harg : arg.isSome = decide (cmd = cmdDo)) :
    Spells cmd num arg.toList crc (.unknownRequest cmd num arg crc) :=
  ⟨rfl, rfl, by simp [Instr.wf, hhead, harg]⟩

/-- Parts that decode to a command spell it. -/
theorem decodeParts_sound {cmd num : Byte} {payload : List Byte} {crc : Byte} {c : Instr}
    (h : decodeParts cmd num payload crc = some c) : Spells cmd num payload crc c := by
  unfold decodeParts at h
  split at h
  next hg =>
    subst hg
    split at h
    next m hn => cases h; exact ⟨by rw [← Obj.number_of_ofNumber hn]; rfl, rfl, rfl⟩
    next o hne hn =>
      cases h
      have hcap : o.isCapture = false := by
        cases o with
        | capture m => exact (hne m rfl).elim
        | _ => rfl
      exact ⟨by rw [← Obj.number_of_ofNumber hn]; rfl, rfl, by simp [Instr.wf, hcap]⟩
    next hn => cases h; exact spells_unknown (arg := none) crc (by simp [unknownHead, hn]) rfl
    next => cases h
  next hg =>
    split at h
    next hp =>
      subst hp
      split at h
      next o hn => rw [← Obj.number_of_ofNumber hn]; exact decodePut_sound h
      next hn =>
        split at h
        next hnil => subst hnil; cases h; exact spells_unknown (arg := none) crc (by simp [unknownHead, hn]) rfl
        next => cases h
    next hp =>
      split at h
      next hd =>
        subst hd
        split at h
        next a arg ha => cases h; rw [← MgmtAction.code_of_ofCode ha]; exact a.spells_command arg crc
        next arg ha =>
          cases h
          exact spells_unknown (arg := some arg) crc (by simp [unknownHead, ha, hg, hp]) rfl
        next => cases h
      next hd =>
        split at h
        next hnil =>
          subst hnil
          cases h
          exact spells_unknown (arg := none) crc (by simp [unknownHead, hg, hp, hd]) (by simp [hd])
        next => cases h

/-- A PUT frame of a known object is decoded by the object's layout. -/
theorem decodeParts_put (o : Obj) (payload : List Byte) (crc : Byte) :
    decodeParts cmdPut o.number payload crc = decodePut o payload crc := by
  simp [decodeParts, cmdPut, cmdGet, Obj.ofNumber_number]

theorem decodeParts_do (a : MgmtAction) (arg crc : Byte) :
    decodeParts cmdDo a.code [arg] crc = some (a.command arg crc) := by
  simp [decodeParts, cmdDo, cmdPut, cmdGet, MgmtAction.ofCode_code]

theorem decodeParts_get {o : Obj} (h : o.isCapture = false) (crc : Byte) :
    decodeParts cmdGet o.number [] crc = some (.get o crc) := by
  unfold decodeParts
  rw [if_pos rfl, Obj.ofNumber_number]
  cases o with
  | capture m => cases h
  | _ => rfl

theorem decodeParts_getCapture (m : Fin 4) (crc : Byte) :
    decodeParts cmdGet (Obj.capture m).number [] crc = some (.getCapture m crc) := by
  unfold decodeParts
  rw [if_pos rfl, Obj.ofNumber_number]

/-- An argument byte is carried in a DO frame alone (R165). -/
theorem eq_none_of_not_do {cmd : Byte} {arg : Option Byte} (h : arg.isSome = decide (cmd = cmdDo))
    (hd : cmd ≠ cmdDo) : arg = none := by
  simpa [hd] using h

theorem decodeParts_unknown {cmd num : Byte} {arg : Option Byte} (crc : Byte) (hhead : unknownHead cmd num = true)
    (harg : arg.isSome = decide (cmd = cmdDo)) :
    decodeParts cmd num arg.toList crc = some (.unknownRequest cmd num arg crc) := by
  unfold unknownHead at hhead
  unfold decodeParts
  by_cases hd : cmd = cmdDo
  · subst hd
    obtain ⟨a, rfl⟩ := Option.isSome_iff_exists.mp (harg.trans (decide_eq_true rfl))
    have hnone : MgmtAction.ofCode num = none := by simpa [cmdDo, cmdGet, cmdPut] using hhead
    rw [if_neg (by decide), if_neg (by decide), if_pos rfl, hnone]
    rfl
  · obtain rfl := eq_none_of_not_do harg hd
    by_cases hg : cmd = cmdGet
    · have hnone : Obj.ofNumber num = none := by simpa [hg] using hhead
      rw [if_pos hg, hnone]
      rfl
    · by_cases hp : cmd = cmdPut
      · have hnone : Obj.ofNumber num = none := by simpa [hp] using hhead
        rw [if_neg hg, if_pos hp, hnone]
        rfl
      · rw [if_neg hg, if_neg hp, if_neg hd]
        rfl

/-- A PUT frame decodes to the content that the object's layout reads from it. -/
theorem decodeParts_putContent {α : Type} {o : Obj} {f : α → Byte → Instr} {read : List Byte → Option α}
    {payload : List Byte} {crc : Byte} {v : α} (hput : decodePut o payload crc = (read payload).map (f · crc))
    (hread : read payload = some v) : decodeParts cmdPut o.number payload crc = some (f v crc) := by
  rw [decodeParts_put, hput, hread, Option.map_some]

/-- The parts that spell a command decode to it. -/
theorem decodeParts_complete {cmd num : Byte} {payload : List Byte} {crc : Byte} {c : Instr}
    (h : Spells cmd num payload crc c) : decodeParts cmd num payload crc = some c := by
  obtain ⟨hb, rfl, hwf⟩ := h
  cases c with
  | get o crc => cases hb; exact decodeParts_get (by simpa [Instr.wf] using hwf) crc
  | getCapture m crc => cases hb; exact decodeParts_getCapture m crc
  | putDevice v crc =>
    cases hb
    exact decodeParts_putContent (o := .device) (f := .putDevice) rfl (DeviceRaw.ofBytes_eq_some.mpr rfl)
  | putEvents v crc =>
    cases hb
    exact decodeParts_putContent (o := .events) (f := .putEvents) rfl (eventsOfBytes_eq_some.mpr rfl)
  | putEventEn v crc =>
    cases hb
    exact decodeParts_putContent (o := .eventEn) (f := .putEventEn) rfl (eventsOfBytes_eq_some.mpr rfl)
  | putWindow n v crc =>
    cases hb
    exact decodeParts_putContent (o := .window n) (f := .putWindow n) rfl (WindowRaw.ofBytes_eq_some.mpr rfl)
  | putGroupCfg g v crc =>
    cases hb
    exact decodeParts_putContent (o := .groupCfg g) (f := .putGroupCfg g) rfl (GroupCfgRaw.ofBytes_eq_some.mpr rfl)
  | putTimerCfg t v crc =>
    cases hb
    exact decodeParts_putContent (o := .timerCfg t) (f := .putTimerCfg t) rfl (TimerCfgRaw.ofBytes_eq_some.mpr rfl)
  | putMonCfg m v crc =>
    cases hb
    exact decodeParts_putContent (o := .monCfg m) (f := .putMonCfg m) rfl (MonCfgRaw.ofBytes_eq_some.mpr rfl)
  | putCmtCfg g v crc =>
    cases hb
    exact decodeParts_putContent (o := .cmtCfg g) (f := .putCmtCfg g) rfl (CmtCfgRaw.ofBytes_eq_some.mpr rfl)
  | activate arg crc => cases hb; exact decodeParts_do .activate arg crc
  | bypass arg crc => cases hb; exact decodeParts_do .bypass arg crc
  | softReset arg crc => cases hb; exact decodeParts_do .softReset arg crc
  | enableGroup arg crc => cases hb; exact decodeParts_do .enableGroup arg crc
  | disableGroup arg crc => cases hb; exact decodeParts_do .disableGroup arg crc
  | sealGroup arg crc => cases hb; exact decodeParts_do .sealGroup arg crc
  | discard arg crc => cases hb; exact decodeParts_do .discard arg crc
  | clearFault arg crc => cases hb; exact decodeParts_do .clearFault arg crc
  | timerStart arg crc => cases hb; exact decodeParts_do .timerStart arg crc
  | timerStop arg crc => cases hb; exact decodeParts_do .timerStop arg crc
  | timerPreset arg crc => cases hb; exact decodeParts_do .timerPreset arg crc
  | setCmt arg crc => cases hb; exact decodeParts_do .setCmt arg crc
  | unknownRequest cmd num arg crc =>
    cases hb
    simp only [Instr.wf, Bool.and_eq_true, beq_iff_eq] at hwf
    obtain ⟨hhead, harg⟩ := hwf
    exact decodeParts_unknown crc hhead harg
  | readOnlyPut o payload crc =>
    cases hb
    simp only [Instr.wf, Bool.and_eq_true, beq_iff_eq] at hwf
    obtain ⟨hro, hl⟩ := hwf
    exact (decodeParts_put ..).trans ((if_pos hro).trans (if_pos hl))
  | _ => cases hb

/-! ## Whole requests (R165) -/

/-- The request bytes of a well-formed command are as many as its command and number bytes fix (R165, R172). -/
theorem requestLength_of_encode (c : Instr) : Laws.RequestLength.Statement c := by
  open Laws.RequestLength in
  cases c with
  | putDevice v crc => exact putDevice v crc
  | putEvents v crc => exact putEvents v crc
  | putEventEn v crc => exact putEventEn v crc
  | putWindow n v crc => exact putWindow n v crc
  | putGroupCfg g v crc => exact putGroupCfg g v crc
  | putTimerCfg t v crc => exact putTimerCfg t v crc
  | putMonCfg m v crc => exact putMonCfg m v crc
  | putCmtCfg g v crc => exact putCmtCfg g v crc
  | unknownRequest cmd num arg crc => exact unknownRequest cmd num arg crc
  | readOnlyPut o payload crc => exact readOnlyPut o payload crc
  | powerOn | rstnAssert | rstnRelease | requestAccept | headProcessing | memoryGrant | memoryAnswer | drainStart
  | responseDelivery | holdTimerExpiry | serviceTick | timerStep | pulseEnd | syncTransition | choldChange | frameStart
  | frameEnd | requestByteReceived => exact of_none rfl
  | _ => exact of_body rfl rfl

/-- Bytes that decode to a command are as many as their command and number bytes fix, and their parts spell it. -/
theorem decodeRequest_eq_ok {bytes : List Byte} {c : Instr} : decodeRequest bytes = .ok c ↔
    ∃ (cmd num : Byte) (payload : List Byte) (crc : Byte), bytes = cmd :: num :: (payload ++ [crc]) ∧
      bytes.length = requestLength cmd num ∧ decodeParts cmd num payload crc = some c := by
  constructor
  · intro h
    unfold decodeRequest at h
    split at h
    next cmd num rest =>
      split at h
      next => cases h
      next hshort =>
        split at h
        next => cases h
        next hlong =>
          split at h
          next d hd =>
            cases h
            have hlen : (cmd :: num :: rest).length = requestLength cmd num := by omega
            have hrest : rest ≠ [] := by
              rintro rfl
              have := Machine.three_le_requestLength cmd num
              simp at hlen
              omega
            refine ⟨cmd, num, rest.dropLast, rest.getLastD 0, ?_, hlen, hd⟩
            rw [List.getLastD_eq_getLast?, List.getLast?_eq_some_getLast hrest, Option.getD_some,
              List.dropLast_append_getLast hrest]
          next => cases h
    next => cases h
  · rintro ⟨cmd, num, payload, crc, rfl, hlen, hd⟩
    have hparts : decodeParts cmd num (payload ++ [crc]).dropLast ((payload ++ [crc]).getLastD 0) = some c := by
      simpa using hd
    unfold decodeRequest
    dsimp only
    rw [if_neg (by omega), if_neg (by omega), hparts]

/-- A request of three bytes and more has its command and number bytes before its CRC byte (R165). -/
theorem body_of_request {body rest : List Byte} {cmd num crc : Byte} (h : body ++ [crc] = cmd :: num :: rest)
    (hlen : 3 ≤ (cmd :: num :: rest).length) : ∃ payload, body = cmd :: num :: payload := by
  match body with
  | [] | [_] => simp [← h] at hlen
  | x :: y :: payload =>
    cases h
    exact ⟨payload, rfl⟩

/-- Settles O34: the length that the first two bytes fix tells the parts apart, and the parts spell the command. -/
theorem requestBytesAndCommandsAgree : Obligations.RequestBytesAndCommandsAgree := by
  refine ⟨fun c bytes hwf he => ?_, fun c bytes h => ?_⟩
  · obtain ⟨cmd, num, rest, hbytes, hlen⟩ := requestLength_of_encode c hwf bytes he
    obtain ⟨body, hb, hbody⟩ := Option.map_eq_some_iff.mp he
    subst hbytes
    obtain ⟨payload, rfl⟩ := body_of_request hbody ((Machine.three_le_requestLength cmd num).trans_eq hlen.symm)
    exact decodeRequest_eq_ok.mpr
      ⟨cmd, num, payload, c.requestCrc, hbody.symm, hlen, decodeParts_complete ⟨hb, rfl, hwf⟩⟩
  · obtain ⟨cmd, num, payload, crc, rfl, hlen, hd⟩ := decodeRequest_eq_ok.mp h
    obtain ⟨hb, rfl, hwf⟩ := decodeParts_sound hd
    exact ⟨by rw [encodeRequest, hb]; rfl, hwf⟩

end Sys2Proof

namespace Sys2Proof.Machine

/-! ## No request looks at the management port while it is taken (R164, R167) -/

/-- The same part with another state of the management port. -/
def State.withLink (m : Mgmt) (s : State) : State := { s with mgmt := m }

/-- A taken request with another state of the management port. -/
def Taken.withLink (m : Mgmt) (t : Taken) : Taken := ⟨t.state.withLink m, t.reply⟩

section

variable (m : Mgmt) (s : State)

/-! ### What is read of the part -/

@[simp] theorem withLink_chold : (s.withLink m).chold = s.chold := rfl
@[simp] theorem withLink_windows : (s.withLink m).windows = s.windows := rfl
@[simp] theorem withLink_group (g : Fin 4) : (s.withLink m).group g = s.group g := rfl
@[simp] theorem withLink_engine : (s.withLink m).engine = s.engine := rfl
@[simp] theorem withLink_commitReq : (s.withLink m).commitReq = s.commitReq := rfl
@[simp] theorem withLink_hp : (s.withLink m).hp = s.hp := rfl
@[simp] theorem withLink_cp : (s.withLink m).cp = s.cp := rfl
@[simp] theorem withLink_held : (s.withLink m).held = s.held := rfl
@[simp] theorem withLink_admissible (g : Fin 4) (r : Request) :
    admissible (s.withLink m) g r = admissible s g r := rfl
@[simp] theorem withLink_drainDone (g : Fin 4) : drainDone g (s.withLink m) = drainDone g s := rfl

/-! ### The operations of the staging path -/

@[simp] theorem setHead_withLink (p : PortId) (ph : SlotPhase) :
    (s.withLink m).setHead p ph = (s.setHead p ph).withLink m := by
  cases p <;> rfl

@[simp] theorem modGroup_withLink (g : Fin 4) (f : GroupRec → GroupRec) :
    (s.withLink m).modGroup g f = (s.modGroup g f).withLink m := rfl

@[simp] theorem admitWrite_withLink (g : Fin 4) (r : Request) :
    admitWrite g r (s.withLink m) = (admitWrite g r s).withLink m := rfl

@[simp] theorem retryAdmission_withLink : retryAdmission (s.withLink m) = (retryAdmission s).withLink m := by
  unfold retryAdmission
  rw [withLink_held]
  split
  · simp only [withLink_admissible, admitWrite_withLink, setHead_withLink, apply_ite (State.withLink m)]
  · rfl

@[simp] theorem releaseHeld_withLink (g : Fin 4) : releaseHeld g (s.withLink m) = (releaseHeld g s).withLink m := by
  unfold releaseHeld
  rw [withLink_held]
  split
  · simp only [setHead_withLink, apply_ite (State.withLink m)]
  · rfl

@[simp] theorem convertHold_withLink (g : Fin 4) : convertHold g (s.withLink m) = (convertHold g s).withLink m := by
  unfold convertHold
  rw [withLink_held]
  split
  · simp only [setHead_withLink, apply_ite (State.withLink m)]
  · rfl

@[simp] theorem sealCore_withLink (g : Fin 4) : sealCore g (s.withLink m) = (sealCore g s).withLink m := rfl

@[simp] theorem leavingCheck_withLink : leavingCheck (s.withLink m) = (leavingCheck s).withLink m := by
  unfold leavingCheck
  rw [apply_ite (State.withLink m)]
  rfl

@[simp] theorem reachDisabled_withLink (g : Fin 4) :
    reachDisabled g (s.withLink m) = (reachDisabled g s).withLink m := by
  simp only [reachDisabled, modGroup_withLink, releaseHeld_withLink, leavingCheck_withLink]

@[simp] theorem completeStopping_withLink (g : Fin 4) :
    completeStopping g (s.withLink m) = (completeStopping g s).withLink m := by
  simp only [completeStopping, withLink_group, sealCore_withLink, reachDisabled_withLink, apply_ite (State.withLink m)]

@[simp] theorem finishDrain_withLink (g : Fin 4) : finishDrain g (s.withLink m) = (finishDrain g s).withLink m :=
  completeStopping_withLink m (completeCore g s) g

@[simp] theorem beginDrain_withLink (g : Fin 4) (rest : List (Fin 4)) :
    beginDrain g rest (s.withLink m) = (beginDrain g rest s).withLink m := rfl

@[simp] theorem startTest_withLink (n : Nat) : startTest n (s.withLink m) = (startTest n s).withLink m := by
  induction n generalizing s with
  | zero => rfl
  | succ n ih =>
    unfold startTest
    rw [withLink_engine, withLink_commitReq]
    split
    · simp only [withLink_chold, beginDrain_withLink, withLink_drainDone, finishDrain_withLink, ih,
        apply_ite (State.withLink m)]
    · rfl
    · rfl

@[simp] theorem sealGroup_withLink (g : Fin 4) : sealGroup g (s.withLink m) = (sealGroup g s).withLink m :=
  startTest_withLink m (sealCore g s) _

@[simp] theorem disableGroup_withLink (g : Fin 4) :
    disableGroup g (s.withLink m) = (disableGroup g s).withLink m := by
  simp only [disableGroup, withLink_group, reachDisabled_withLink, modGroup_withLink, convertHold_withLink,
    sealGroup_withLink, apply_ite (State.withLink m)]

@[simp] theorem offerAdmission_withLink (cls : ReqClass) (g : Fin 4) (policy : FullPolicy) (r : Request) :
    offerAdmission cls g policy r (s.withLink m) = (offerAdmission cls g policy r s).withLink m := by
  have hphase : offerPhase cls g policy r (s.withLink m) = offerPhase cls g policy r s := rfl
  unfold offerAdmission
  rw [hphase, withLink_admissible, admitWrite_withLink, ← apply_ite (State.withLink m), setHead_withLink]

@[simp] theorem reexamineHost_withLink (g : Fin 4) : reexamineHost g (s.withLink m) = (reexamineHost g s).withLink m := by
  unfold reexamineHost
  rw [withLink_hp, withLink_windows]
  split
  · split
    · split
      · exact setHead_withLink ..
      · split
        · split
          · exact offerAdmission_withLink ..
          · split
            · exact setHead_withLink ..
            · rfl
        · rfl
      all_goals rfl
    all_goals rfl
  · rfl

@[simp] theorem reexamineConsumer_withLink (g : Fin 4) :
    reexamineConsumer g (s.withLink m) = (reexamineConsumer g s).withLink m := by
  unfold reexamineConsumer
  rw [withLink_cp, withLink_windows]
  split
  · split
    · split
      · exact setHead_withLink ..
      · split
        · exact setHead_withLink ..
        · rfl
      all_goals rfl
    · rfl
  · rfl

@[simp] theorem windDown_withLink (g : Fin 4) : windDown (s.withLink m) g = (windDown s g).withLink m := by
  unfold windDown
  rw [withLink_group]
  split
  · exact disableGroup_withLink m s g
  · exact disableGroup_withLink m s g
  · rfl
  · rfl

@[simp] theorem foldl_windDown_withLink (gs : List (Fin 4)) :
    gs.foldl windDown (s.withLink m) = (gs.foldl windDown s).withLink m := by
  induction gs generalizing s with
  | nil => rfl
  | cons g gs ih => rw [List.foldl_cons, windDown_withLink, ih, List.foldl_cons]

/-! ### The requests -/

theorem getObject_withLink (o : Obj) : getObject o (s.withLink m) = (getObject o s).withLink m := by
  cases o <;> rfl

theorem putDevice_withLink (v : DeviceRaw) : putDevice v (s.withLink m) = (putDevice v s).withLink m := by
  unfold putDevice
  rw [apply_ite (Taken.withLink m)]
  rfl

theorem putWindow_withLink (n : Fin 8) (v : WindowRaw) :
    putWindow n v (s.withLink m) = (putWindow n v s).withLink m := by
  unfold putWindow
  split
  · rfl
  · rw [apply_ite (Taken.withLink m), apply_ite (Taken.withLink m)]
    rfl

theorem putGroupCfg_withLink (g : Fin 4) (v : GroupCfgRaw) :
    putGroupCfg g v (s.withLink m) = (putGroupCfg g v s).withLink m := by
  unfold putGroupCfg
  split
  · rfl
  · rw [apply_ite (Taken.withLink m), apply_ite (Taken.withLink m)]
    rfl

theorem putTimerCfg_withLink (t : Fin 4) (v : TimerCfgRaw) :
    putTimerCfg t v (s.withLink m) = (putTimerCfg t v s).withLink m := by
  unfold putTimerCfg
  split
  · rfl
  · rw [apply_ite (Taken.withLink m), apply_ite (Taken.withLink m), apply_ite (Taken.withLink m)]
    rfl

theorem putMonCfg_withLink (i : Fin 4) (v : MonCfgRaw) :
    putMonCfg i v (s.withLink m) = (putMonCfg i v s).withLink m := by
  unfold putMonCfg
  split <;> rfl

theorem putCmtCfg_withLink (g : Fin 4) (v : CmtCfgRaw) :
    putCmtCfg g v (s.withLink m) = (putCmtCfg g v s).withLink m := by
  unfold putCmtCfg
  split
  · rw [apply_ite (Taken.withLink m)]
    rfl
  · rfl

theorem activateAction_withLink (arg : Byte) :
    activateAction arg (s.withLink m) = (activateAction arg s).withLink m := by
  unfold activateAction
  rw [apply_ite (Taken.withLink m), apply_ite (Taken.withLink m)]
  rfl

theorem bypassAction_withLink (arg : Byte) : bypassAction arg (s.withLink m) = (bypassAction arg s).withLink m := by
  have hleave : { s.withLink m with mode := .leaving } = State.withLink m { s with mode := .leaving } := rfl
  unfold bypassAction
  rw [hleave, foldl_windDown_withLink, apply_ite (Taken.withLink m), apply_ite (Taken.withLink m),
    apply_ite (Taken.withLink m)]
  rfl

theorem softResetAction_withLink (arg : Byte) :
    softResetAction arg (s.withLink m) = (softResetAction arg s).withLink m := by
  unfold softResetAction
  rw [apply_ite (Taken.withLink m)]
  rfl

theorem enableAction_withLink (g : Fin 4) : enableAction g (s.withLink m) = (enableAction g s).withLink m := by
  unfold enableAction
  rw [modGroup_withLink, reexamineHost_withLink, reexamineConsumer_withLink, apply_ite (Taken.withLink m),
    apply_ite (Taken.withLink m)]
  rfl

theorem disableAction_withLink (g : Fin 4) : disableAction g (s.withLink m) = (disableAction g s).withLink m := by
  unfold disableAction
  rw [withLink_group, disableGroup_withLink]
  split <;> rfl

theorem sealAction_withLink (g : Fin 4) : sealAction g (s.withLink m) = (sealAction g s).withLink m := by
  unfold sealAction
  rw [withLink_group, sealGroup_withLink]
  split
  case h_3 | h_4 => rw [apply_ite (Taken.withLink m)]; rfl
  all_goals rfl

theorem discardAction_withLink (g : Fin 4) : discardAction g (s.withLink m) = (discardAction g s).withLink m := by
  have hretry : retryAdmission (discardOpen g (s.withLink m)) = (retryAdmission (discardOpen g s)).withLink m :=
    retryAdmission_withLink m (discardOpen g s)
  unfold discardAction
  rw [withLink_group, hretry]
  split <;> rfl

theorem timerStartAction_withLink (t : Fin 4) :
    timerStartAction t (s.withLink m) = (timerStartAction t s).withLink m := by
  unfold timerStartAction
  rw [apply_ite (Taken.withLink m)]
  rfl

theorem timerStopAction_withLink (t : Fin 4) :
    timerStopAction t (s.withLink m) = (timerStopAction t s).withLink m := by
  unfold timerStopAction
  rw [apply_ite (Taken.withLink m)]
  rfl

theorem setCmtAction_withLink (arg : Byte) : setCmtAction arg (s.withLink m) = (setCmtAction arg s).withLink m := by
  unfold setCmtAction
  split <;> rfl

/-- An action on a group or timer is as free of the management port as it is for each one (R175). -/
theorem withIndex_withLink {f : Fin 4 → State → Taken} (hf : ∀ g, f g (s.withLink m) = (f g s).withLink m)
    (arg : Byte) : withIndex arg f (s.withLink m) = (withIndex arg f s).withLink m := by
  unfold withIndex
  split
  · rfl
  · exact hf _

/-- What a request does, and what it is answered, is the same for every state of the management port. -/
theorem requestOp_withLink (c : Instr) : requestOp c (s.withLink m) = (requestOp c s).withLink m := by
  cases c with
  | get o crc => exact getObject_withLink m s o
  | getCapture i crc => exact getObject_withLink m s (.capture i)
  | putDevice v crc => exact putDevice_withLink m s v
  | putWindow n v crc => exact putWindow_withLink m s n v
  | putGroupCfg g v crc => exact putGroupCfg_withLink m s g v
  | putTimerCfg t v crc => exact putTimerCfg_withLink m s t v
  | putMonCfg i v crc => exact putMonCfg_withLink m s i v
  | putCmtCfg g v crc => exact putCmtCfg_withLink m s g v
  | activate arg crc => exact activateAction_withLink m s arg
  | bypass arg crc => exact bypassAction_withLink m s arg
  | softReset arg crc => exact softResetAction_withLink m s arg
  | enableGroup arg crc => exact withIndex_withLink m s (enableAction_withLink m s) arg
  | disableGroup arg crc => exact withIndex_withLink m s (disableAction_withLink m s) arg
  | sealGroup arg crc => exact withIndex_withLink m s (sealAction_withLink m s) arg
  | discard arg crc => exact withIndex_withLink m s (discardAction_withLink m s) arg
  | clearFault arg crc => exact withIndex_withLink m s (fun _ => rfl) arg
  | timerStart arg crc => exact withIndex_withLink m s (timerStartAction_withLink m s) arg
  | timerStop arg crc => exact withIndex_withLink m s (timerStopAction_withLink m s) arg
  | timerPreset arg crc => exact withIndex_withLink m s (fun _ => rfl) arg
  | setCmt arg crc => exact setCmtAction_withLink m s arg
  | _ => rfl

/-- A request is taken alike for every state of the management port, which its reply replaces (R164, R167). -/
theorem takeRequest_withLink (c : Instr) (body : List Byte) (crc : Byte) :
    takeRequest body crc (requestOp c) (s.withLink m) = takeRequest body crc (requestOp c) s := by
  unfold takeRequest
  rw [requestOp_withLink]
  rfl

end

end Sys2Proof.Machine

namespace Sys2Proof.Machine

/-! ## A request clocked in byte by byte (R164, R165, R167) -/

/-- The link is in the middle of the request `bytes`, of which `rest` is still to be clocked in (R165). -/
structure Receiving (bytes rest : List Byte) (m : Mgmt) : Prop where
  phase : m.phase = .request
  bytes_eq : m.received ++ rest = bytes
  length : m.length = if m.received.length < 2 then none else some bytes.length

/-- The request bytes are as many as their command and number bytes fix (R165). -/
def Whole (bytes : List Byte) : Prop :=
  ∃ (cmd num : Byte) (tail : List Byte), bytes = cmd :: num :: tail ∧ bytes.length = requestLength cmd num

/-- The number byte fixes the length of the request (R165). -/
theorem Receiving.lengthAfter_eq {bytes rest : List Byte} {b : Byte} {m : Mgmt} (h : Receiving bytes (b :: rest) m)
    (hwhole : Whole bytes) : lengthAfter (m.received ++ [b]) m.length =
      if (m.received ++ [b]).length < 2 then none else some bytes.length := by
  obtain ⟨-, hbytes, hlength⟩ := h
  match hr : m.received with
  | [] => rw [hlength, hr]; rfl
  | [x] =>
    obtain ⟨cmd, num, tail, rfl, hlen⟩ := hwhole
    rw [hr] at hbytes
    cases hbytes
    rw [hlen]
    rfl
  | x :: y :: more =>
    rw [lengthAfter_late (by simp), hlength, hr]
    simp

/-- A byte that is not the last is kept, and the link goes on receiving (R165). -/
theorem Receiving.clockByte_more {bytes rest : List Byte} {b : Byte} {s : State}
    (h : Receiving bytes (b :: rest) s.mgmt) (hwhole : Whole bytes) (hrest : rest ≠ []) :
    ∃ m : Mgmt, clockByte b s = s.withLink m ∧ Receiving bytes rest m := by
  have hlong : (s.mgmt.received ++ [b]).length < bytes.length := by
    have := List.length_pos_of_ne_nil hrest
    rw [← h.bytes_eq]
    simp only [List.length_append, List.length_cons, List.length_nil]
    omega
  refine ⟨_, clockByte_incomplete h.phase (h.lengthAfter_eq hwhole) ?_, h.phase, ?_, rfl⟩
  · split
    · exact nofun
    · rw [ne_eq, Option.some.injEq]
      omega
  · rw [← h.bytes_eq, List.append_assoc]
    rfl

/-- The last byte has the request taken (R165, R167). -/
theorem Receiving.clockByte_last {bytes : List Byte} {b : Byte} {s : State} (h : Receiving bytes [b] s.mgmt)
    (hwhole : Whole bytes) : clockByte b s = takeBytes bytes s := by
  have hlong : ¬ bytes.length < 2 := by
    obtain ⟨cmd, num, tail, rfl, -⟩ := hwhole
    simp
  have hk := h.lengthAfter_eq hwhole
  rw [h.bytes_eq, if_neg hlong] at hk
  rw [clockByte_complete h.phase (by rw [h.bytes_eq, hk]), h.bytes_eq]

/-- A run goes on from the state its first step gives. -/
theorem run_succ {M : Host.Core} {s t : M.State} (h : M.step s = .next t) (n : Nat) : M.run (n + 1) s = M.run n t := by
  simp only [Host.Core.run, h]

theorem run_of_step {s t : State} (h : step s = .next t) (n : Nat) :
    Host.Core.run Sys2Proof.core (n + 1) s = Host.Core.run Sys2Proof.core n t :=
  run_succ (M := Sys2Proof.core) (s := s) (t := t) h n

/-- The bytes left of a request, clocked in one by one, have it taken. -/
theorem run_request {c : Instr} {bytes rest : List Byte} (hwhole : Whole bytes) (hdecode : decodeRequest bytes = .ok c)
    {s : State} (h : Receiving bytes rest s.mgmt) (hrest : rest ≠ []) :
    Host.Core.run Sys2Proof.core rest.length { s with pending := rest.map .requestByteReceived } =
      .next (takeRequest bytes.dropLast (bytes.getLastD 0) (requestOp c) { s with pending := [] }) := by
  induction rest generalizing s with
  | nil => exact absurd rfl hrest
  | cons b rest ih =>
    have first : step { s with pending := (b :: rest).map .requestByteReceived } =
        .next (clockByte b { s with pending := rest.map .requestByteReceived }) := rfl
    refine (run_of_step first rest.length).trans ?_
    by_cases hlast : rest = []
    · subst hlast
      have taken : takeBytes bytes { s with pending := [] } =
          takeRequest bytes.dropLast (bytes.getLastD 0) (requestOp c) { s with pending := [] } := by
        simp only [takeBytes, hdecode]
      exact congrArg Host.Outcome.next ((h.clockByte_last (s := { s with pending := [] }) hwhole).trans taken)
    · obtain ⟨m, hclock, hm⟩ :=
        h.clockByte_more (s := { s with pending := rest.map .requestByteReceived }) hwhole hlast
      rw [hclock]
      exact (ih (s := s.withLink m) hm hlast).trans
        (congrArg Host.Outcome.next (takeRequest_withLink m { s with pending := [] } c _ _))

/-- At the start of a frame a well-formed management command is taken whole (R164, R167). -/
theorem exec_request_first {c : Instr} {body : List Byte} {s : State} (hb : c.requestBody = some body)
    (hwf : c.wf = true) (hp : s.mgmt.phase = .request) (hr : s.mgmt.received = []) :
    exec c s = .next (takeRequest body c.requestCrc (requestOp c) s) := by
  rw [exec_request_wf hb hwf]
  exact congrArg Host.Outcome.next (if_pos ⟨hp, by rw [hr]; rfl⟩)

/-- Settles O35, by induction on the bytes still to be clocked in; no request depends on what the link holds. -/
theorem bytesDoWhatTheirCommandDoes : Obligations.BytesDoWhatTheirCommandDoes := by
  intro c bytes s hwf he hp hr hl
  have hwhole : Whole bytes := requestLength_of_encode c hwf bytes he
  have hdecode : decodeRequest bytes = .ok c := requestBytesAndCommandsAgree.1 c bytes hwf he
  obtain ⟨body, hb, hbytes⟩ := Option.map_eq_some_iff.mp he
  have hne : bytes ≠ [] := by simp [← hbytes]
  have hbody : bytes.dropLast = body := by rw [← hbytes, List.dropLast_concat]
  have hcrc : bytes.getLastD 0 = c.requestCrc := by rw [← hbytes, List.getLastD_concat]
  have hstart : Receiving bytes bytes s.mgmt := ⟨hp, by rw [hr]; rfl, by rw [hl, hr]; rfl⟩
  have hrun := run_request hwhole hdecode hstart hne
  rw [hbody, hcrc] at hrun
  exact hrun.trans (exec_request_first (s := { s with pending := [] }) hb hwf hp hr).symm

end Sys2Proof.Machine

namespace Sys2Proof.Machine

/-! ## SOFT_RESET (R183) -/

theorem Line.softReset_eq (x : Line) : x.softReset = { x with
    countdown := 0, logic := if x.mode = .level then x.software else false } := by
  unfold Line.softReset
  cases hm : x.mode <;> rfl

theorem Timer.softReset_eq (x : Timer) : x.softReset = { x with
    running := false
    counter := if x.mode = .down then x.period else 0
    direction := if x.mode = .down then .down else .up
    periodNext := none
    matchNext := none
    prescale := 0 } := by
  rw [Timer.softReset, Timer.preset_eq]

theorem exec_softReset {s : State} {crc : Byte} (h : RequestReady s [0x03, 0x03, 0x00] crc) :
    exec (.softReset 0x00 crc) s = .next (replied [0xC0] (softReset s)) :=
  exec_ready (c := .softReset 0x00 crc) rfl rfl h

/-- Settles O6: SOFT_RESET of each timer and each line in the fields of the table, and the rest of it as defined. -/
theorem softResetEndsAllStagingWork : Obligations.SoftResetEndsAllStagingWork := by
  intro s crc h
  rw [exec_softReset h, softReset, funext Timer.softReset_eq, funext Line.softReset_eq]
  rfl

end Sys2Proof.Machine

namespace Sys2Proof

/-! ## A table by its four things -/

/-- The table whose thing numbered `i` is `f i`. -/
def Four.build {α : Type} (f : Fin 4 → α) : Four α := ⟨f 0, f 1, f 2, f 3⟩

@[simp] theorem Four.get_build {α : Type} (f : Fin 4 → α) (i : Fin 4) : (Four.build f).get i = f i := by
  fin_cases i <;> rfl

theorem Four.build_eq {α : Type} {f : Fin 4 → α} {v : Four α} (h : ∀ i, f i = v.get i) : Four.build f = v :=
  Four.ext_get fun i => (Four.get_build f i).trans (h i)

end Sys2Proof

namespace Sys2Proof.Machine

/-! ## What BYPASS makes of a list of groups (R179)

`wound l s` is the state once the groups of `l` have been put through DISABLE_GROUP in this order, in closed form: it says
of each field of the state what the statement about the BYPASS action says of it. -/

/-- The groups of `l` that make their final seal when they are wound down (R57). -/
def finalSeals (l : List (Fin 4)) (s : State) : List (Fin 4) :=
  l.filter (fun g => entersStopping s g && !(s.group g).hasSealed)

/-- Group `g` once the groups of `l` are wound down (R18, R57). -/
def woundGroup (l : List (Fin 4)) (s : State) (g : Fin 4) : GroupRec :=
  if g ∈ finalSeals l s then
    { s.group g with
      state := .stopping
      hasSealed := true
      sealedCount := (s.group g).openCount
      openCount := 0
      openEpoch := (s.group g).openEpoch + 1 }
  else if g ∈ l then
    { s.group g with
      state := if endsAtOnce s g then .disabled else if entersStopping s g then .stopping else (s.group g).state }
  else s.group g

/-- Every group is DISABLED once those of `l` are wound down. -/
abbrev EndsIn (l : List (Fin 4)) (s : State) : Prop :=
  ∀ g : Fin 4, (s.group g).state = .disabled ∨ g ∈ l ∧ endsAtOnce s g = true

/-- An entry once the groups of `sealing` are sealed (R38). -/
def sealedIn (sealing : List (Fin 4)) (e : Entry) : Entry :=
  if e.group ∈ sealing ∧ e.role = .opened then { e with role := .sealed, issue := .notIssued } else e

/-- The commit request queue and the engine once the groups of `sealing` are sealed one after another: while CHOLD is
asserted or a drain is in progress all of them wait, else the drain of the first starts (R47, R63). -/
def linedUp (s : State) : List (Fin 4) → List (Fin 4) × Engine
  | [] => (s.commitReq, s.engine)
  | g :: rest =>
    if s.chold = true ∨ s.engine.state ≠ .idle then (s.commitReq ++ g :: rest, s.engine)
    else (rest, { s.engine with state := .draining g, retry := [] })

/-- The Host Port once the group of its held write is wound down (R34, R36). -/
def holdEnded (s : State) (h : HeldWrite) : Port :=
  if endsAtOnce s h.cls.group then s.hp.setHead (.head h.cls .passThrough)
  else if entersStopping s h.cls.group then s.hp.setHead (.head h.cls (.held .disable h.timer))
  else s.hp

/-- The Host Port once the groups of `l` are wound down. -/
def woundPort (l : List (Fin 4)) (s : State) : Port :=
  match s.held with
  | none => s.hp
  | some h => if h.cls.group ∈ l then holdEnded s h else s.hp

/-- The flags caused while the groups of `l` are wound down. -/
def woundFlags (l : List (Fin 4)) (s : State) : List EventFlag :=
  (finalSeals l s).map .sealed ++ if s.mode = .leaving ∧ EndsIn l s then [.bypassReached] else []

/-- The part once the groups of `l` are wound down in this order (R179). -/
def wound (l : List (Fin 4)) (s : State) : State :=
  { s with
    mode := if s.mode = .leaving ∧ EndsIn l s then .bypass else s.mode
    groups := Four.build (woundGroup l s)
    queue := s.queue.map (sealedIn (finalSeals l s))
    commitReq := (linedUp s (finalSeals l s)).1
    engine := (linedUp s (finalSeals l s)).2
    hp := woundPort l s
    events := s.events.causes (woundFlags l s)
    lines := Four.build fun g => if g ∈ finalSeals l s then lineSealed (s.lines.get g) else s.lines.get g }

@[simp] theorem wound_group (l : List (Fin 4)) (s : State) (g : Fin 4) : (wound l s).group g = woundGroup l s g :=
  Four.get_build _ g

@[simp] theorem wound_line (l : List (Fin 4)) (s : State) (g : Fin 4) : (wound l s).lines.get g =
    if g ∈ finalSeals l s then lineSealed (s.lines.get g) else s.lines.get g :=
  Four.get_build _ g

/-! ### Which way a group ends -/

theorem on_of_endsAtOnce {s : State} {g : Fin 4} (h : endsAtOnce s g = true) :
    entersStopping s g = false ∧ ((s.group g).state = .running ∨ (s.group g).state = .faulted) := by
  refine ⟨by simp [entersStopping, h], ?_⟩
  simp only [endsAtOnce, Bool.and_eq_true, Bool.or_eq_true, beq_iff_eq] at h
  exact h.1

theorem on_of_entersStopping {s : State} {g : Fin 4} (h : entersStopping s g = true) :
    endsAtOnce s g = false ∧ ((s.group g).state = .running ∨ (s.group g).state = .faulted) := by
  simpa [entersStopping, and_comm] using h

/-- A group that is RUNNING or FAULTED is wound down in one of two ways. -/
theorem ends_or_stops {s : State} {g : Fin 4} (h : (s.group g).state = .running ∨ (s.group g).state = .faulted) :
    endsAtOnce s g = true ∨ entersStopping s g = true := by
  cases he : endsAtOnce s g with
  | true => exact .inl rfl
  | false => exact .inr (by simpa [entersStopping, he] using h)

theorem mem_finalSeals {l : List (Fin 4)} {s : State} {g : Fin 4} :
    g ∈ finalSeals l s ↔ g ∈ l ∧ entersStopping s g = true ∧ (s.group g).hasSealed = false := by
  simp [finalSeals]

theorem finalSeals_append (l m : List (Fin 4)) (s : State) : finalSeals (l ++ m) s = finalSeals l s ++ finalSeals m s :=
  List.filter_append ..

/-- A group that is DISABLED or STOPPING already is not wound down. -/
theorem not_wound_of_state {s : State} {g : Fin 4} (h : (s.group g).state = .disabled ∨ (s.group g).state = .stopping) :
    endsAtOnce s g = false ∧ entersStopping s g = false := by
  rcases h with h | h <;> simp [endsAtOnce, entersStopping, h]

/-- What is wound down depends on the group's record alone. -/
theorem wound_congr {s t : State} {g : Fin 4} (h : t.group g = s.group g) :
    endsAtOnce t g = endsAtOnce s g ∧ entersStopping t g = entersStopping s g := by
  simp [endsAtOnce, entersStopping, h]

theorem finalSeals_none {s : State} {g : Fin 4} (h : entersStopping s g = false ∨ (s.group g).hasSealed = true) :
    finalSeals [g] s = [] := by
  rcases h with h | h <;> simp [finalSeals, h]

theorem finalSeals_one {s : State} {g : Fin 4} (h : entersStopping s g = true) (hn : (s.group g).hasSealed = false) :
    finalSeals [g] s = [g] := by
  simp [finalSeals, h, hn]

theorem woundGroup_of_not_mem {l : List (Fin 4)} {s : State} {g : Fin 4} (h : g ∉ l) : woundGroup l s g = s.group g := by
  rw [woundGroup, if_neg fun hf => h (mem_finalSeals.mp hf).1, if_neg h]

theorem woundGroup_disabled_iff {l : List (Fin 4)} {s : State} {g : Fin 4} :
    (woundGroup l s g).state = .disabled ↔ (s.group g).state = .disabled ∨ g ∈ l ∧ endsAtOnce s g = true := by
  have stops : entersStopping s g = true →
      ¬ ((s.group g).state = .disabled ∨ g ∈ l ∧ endsAtOnce s g = true) := fun h => by
    obtain ⟨he, hon | hon⟩ := on_of_entersStopping h <;> simp [he, hon]
  unfold woundGroup
  split
  next hf => simpa using stops (mem_finalSeals.mp hf).2.1
  next =>
    split
    next hl =>
      cases he : endsAtOnce s g with
      | true => simp [hl]
      | false =>
        cases hs : entersStopping s g with
        | true => simpa [he] using stops hs
        | false => simp
    next hl => simp [hl]

/-! ### One group (R18, R34, R36, R57, R63) -/

theorem woundPort_none {s : State} (h : s.held = none) (l : List (Fin 4)) : woundPort l s = s.hp := by
  unfold woundPort
  rw [h]

theorem woundPort_some {s : State} {h : HeldWrite} (hh : s.held = some h) (l : List (Fin 4)) :
    woundPort l s = if h.cls.group ∈ l then holdEnded s h else s.hp := by
  unfold woundPort
  rw [hh]

/-- The Host Port stays as it is when no write is held for a group of `l` that is wound down. -/
theorem woundPort_kept {l : List (Fin 4)} {s : State} (h : ∀ x : HeldWrite, s.held = some x → x.cls.group ∈ l →
    endsAtOnce s x.cls.group = false ∧ entersStopping s x.cls.group = false) : woundPort l s = s.hp := by
  cases hh : s.held with
  | none => exact woundPort_none hh l
  | some x =>
    rw [woundPort_some hh]
    split
    next hl =>
      obtain ⟨he, hs⟩ := h x hh hl
      simp [holdEnded, he, hs]
    next => rfl

/-- Releasing the hold of a group that ends at once is the end of its hold, whatever its record becomes (R36). -/
theorem holdReleased_eq_woundPort {s : State} {g : Fin 4} (h : endsAtOnce s g = true) (gs : Four GroupRec) :
    holdReleased g { s with groups := gs } = { s with groups := gs, hp := woundPort [g] s } := by
  have hheld : ({ s with groups := gs } : State).held = s.held := rfl
  unfold holdReleased
  rw [hheld]
  cases hh : s.held with
  | none => rw [woundPort_none hh]
  | some x =>
    rw [woundPort_some hh]
    by_cases hx : x.cls.group = g
    · simp [hx, holdEnded, h]
    · simp [hx]

/-- Converting the hold of a group that becomes STOPPING is the end of its hold (R34). -/
theorem holdConverted_eq_woundPort {s : State} {g : Fin 4} (h : entersStopping s g = true) (gs : Four GroupRec) :
    holdConverted g { s with groups := gs } = { s with groups := gs, hp := woundPort [g] s } := by
  have hheld : ({ s with groups := gs } : State).held = s.held := rfl
  have hends : endsAtOnce s g = false := (on_of_entersStopping h).1
  unfold holdConverted
  rw [hheld]
  cases hh : s.held with
  | none => rw [woundPort_none hh]
  | some x =>
    rw [woundPort_some hh]
    by_cases hx : x.cls.group = g
    · simp [hx, holdEnded, h, hends]
    · simp [hx]

theorem sealedIn_nil : sealedIn [] = id := by
  funext e
  simp [sealedIn]

theorem sealedIn_one (g : Fin 4) : sealedIn [g] =
    fun e => if e.group = g ∧ e.role = .opened then { e with role := .sealed, issue := .notIssued } else e := by
  funext e
  simp [sealedIn]

/-- A group that makes no final seal moves its own record, the Host Port, and the mode with its flag when it ends last. -/
theorem wound_of_no_seal {s : State} {g : Fin 4} (h : finalSeals [g] s = []) : wound [g] s =
    { s with
      mode := if s.mode = .leaving ∧ EndsIn [g] s then .bypass else s.mode
      groups := s.groups.set g (woundGroup [g] s g)
      hp := woundPort [g] s
      events := s.events.causes (if s.mode = .leaving ∧ EndsIn [g] s then [.bypassReached] else []) } := by
  have hgroups : Four.build (woundGroup [g] s) = s.groups.set g (woundGroup [g] s g) := by
    refine Four.build_eq fun k => ?_
    rw [Four.get_set]
    split
    next hk => rw [hk]
    next hk => exact woundGroup_of_not_mem (by simpa using hk)
  have hlines : (Four.build fun k => if k ∈ finalSeals [g] s then lineSealed (s.lines.get k) else s.lines.get k) =
      s.lines := Four.build_eq fun k => if_neg (by simp [h])
  rw [wound, hgroups, hlines, woundFlags, h, sealedIn_nil, List.map_id]
  rfl

theorem woundGroup_of_no_seal {s : State} {g : Fin 4} (h : finalSeals [g] s = []) : woundGroup [g] s g =
    { s.group g with
      state := if endsAtOnce s g then .disabled else if entersStopping s g then .stopping else (s.group g).state } := by
  rw [woundGroup, if_neg (by simp [h]), if_pos (List.mem_singleton.mpr rfl)]

/-- A group that does not end at once is not the last to end. -/
theorem not_endsIn_one {w : Fin 4 → Prop} {s : State} {g : Fin 4} (hs : StagingLaw w s) (h : endsAtOnce s g = false) :
    ¬ (s.mode = .leaving ∧ EndsIn [g] s) := by
  rintro ⟨hl, he⟩
  obtain ⟨k, hk⟩ := (hs.mode.2 hl).2
  obtain ⟨hm, hke⟩ := (he k).resolve_left hk
  rw [List.mem_singleton.mp hm, h] at hke
  cases hke

/-- A group that is DISABLED or STOPPING already stays as it is (R179). -/
theorem windDown_of_off {s : State} {g : Fin 4} (h : (s.group g).state = .disabled ∨ (s.group g).state = .stopping) :
    windDown s g = s := by
  unfold windDown
  rcases h with h | h <;> rw [h]

theorem windDown_of_on {s : State} {g : Fin 4} (h : (s.group g).state = .running ∨ (s.group g).state = .faulted) :
    windDown s g = disableGroup g s := by
  unfold windDown
  rcases h with h | h <;> rw [h]

theorem wound_of_off {w : Fin 4 → Prop} {s : State} {g : Fin 4} (hs : StagingLaw w s)
    (h : (s.group g).state = .disabled ∨ (s.group g).state = .stopping) : wound [g] s = s := by
  obtain ⟨hends, hstop⟩ := not_wound_of_state h
  have hseal : finalSeals [g] s = [] := finalSeals_none (.inl hstop)
  have hlast := not_endsIn_one hs hends
  have hport : woundPort [g] s = s.hp :=
    woundPort_kept fun x _ hx => by rw [List.mem_singleton.mp hx]; exact ⟨hends, hstop⟩
  rw [wound_of_no_seal hseal, woundGroup_of_no_seal hseal, hport, if_neg hlast, if_neg hlast, hends, hstop]
  exact congrArg (fun gs => ({ s with groups := gs } : State)) (Four.set_get_self _ _)

theorem wound_of_endsAtOnce {s : State} {g : Fin 4} (h : endsAtOnce s g = true) : wound [g] s = disabledAt g s := by
  obtain ⟨hstop, hon⟩ := on_of_endsAtOnce h
  have hseal : finalSeals [g] s = [] := finalSeals_none (.inl hstop)
  have hlast : EndsIn [g] s ↔ ∀ k : Fin 4, k ≠ g → (s.group k).state = .disabled := by
    refine forall_congr' fun k => ?_
    by_cases hk : k = g
    · simp [hk, h]
    · simp [hk]
  rw [wound_of_no_seal hseal, woundGroup_of_no_seal hseal, if_pos h, disabledAt, holdReleased_eq_woundPort h]
  simp only [hlast]
  split <;> rfl

theorem wound_of_sealed {w : Fin 4 → Prop} {s : State} {g : Fin 4} (hs : StagingLaw w s)
    (hstop : entersStopping s g = true) (hn : (s.group g).hasSealed = true) : wound [g] s = stoppedAt g s := by
  have hends := (on_of_entersStopping hstop).1
  have hseal : finalSeals [g] s = [] := finalSeals_none (.inr hn)
  have hlast := not_endsIn_one hs hends
  rw [wound_of_no_seal hseal, woundGroup_of_no_seal hseal, if_neg hlast, if_neg hlast, hends, hstop, stoppedAt,
    holdConverted_eq_woundPort hstop]
  rfl

/-- A group that makes its final seal has OPEN entries. -/
theorem opened_of_finalSeal {w : Fin 4 → Prop} {s : State} {g : Fin 4} (hs : StagingLaw w s)
    (hstop : entersStopping s g = true) (hn : (s.group g).hasSealed = false) :
    0 < (s.group g).openCount ∧ s.queue.any (fun e => e.group == g && e.role == .opened) = true := by
  obtain ⟨hends, hon⟩ := on_of_entersStopping hstop
  obtain ⟨hopen, -, hnone⟩ := hs.counts g
  have hpos : 0 < (s.group g).openCount := by
    rcases hon with hon | hon <;> simpa [endsAtOnce, hon, hnone hn, hn, Nat.pos_iff_ne_zero] using hends
  refine ⟨hpos, ?_⟩
  rw [hopen] at hpos
  simpa [entryCount_eq_countP, List.countP_pos_iff, List.any_eq_true] using hpos

/-- The start test after a seal, with no start left undone before it: the queue and the engine alone move (R63). -/
theorem testStart_sealedAt {s : State} {g : Fin 4} (hstart : NoStartLeft s)
    (hopen : s.queue.any (fun e => e.group == g && e.role == .opened) = true) : testStart (sealedAt g s) =
      { sealedAt g s with commitReq := (linedUp s [g]).1, engine := (linedUp s [g]).2 } := by
  by_cases hwait : s.chold = true ∨ s.engine.state ≠ .idle
  · rw [testStart_of (startTest_sealedAt_waits hwait), linedUp, if_pos hwait]
    rfl
  · obtain ⟨hc, he⟩ : s.chold = false ∧ s.engine.state = .idle := by simpa using hwait
    rw [testStart_of (startTest_sealedAt_starts hc he (hstart he hc) hopen), linedUp, if_neg hwait]

theorem wound_of_seal {w : Fin 4 → Prop} {s : State} {g : Fin 4} (hs : StagingLaw w s) (hstart : NoStartLeft s)
    (hstop : entersStopping s g = true) (hn : (s.group g).hasSealed = false) :
    wound [g] s = sealGroup g (stoppedAt g s) := by
  have hseal : finalSeals [g] s = [g] := finalSeals_one hstop hn
  have hlast := not_endsIn_one hs (on_of_entersStopping hstop).1
  have hstopped : stoppedAt g s = { s with
      groups := s.groups.set g { s.group g with state := .stopping }, hp := woundPort [g] s } :=
    holdConverted_eq_woundPort hstop _
  have hstart' : NoStartLeft (stoppedAt g s) := by rw [hstopped]; exact hstart
  have hopen : (stoppedAt g s).queue.any (fun e => e.group == g && e.role == .opened) = true := by
    rw [hstopped]; exact (opened_of_finalSeal hs hstop hn).2
  have hgroups : Four.build (woundGroup [g] s) = s.groups.set g { s.group g with
      state := .stopping
      hasSealed := true
      sealedCount := (s.group g).openCount
      openCount := 0
      openEpoch := (s.group g).openEpoch + 1 } := by
    refine Four.build_eq fun k => ?_
    rw [Four.get_set]
    by_cases hk : k = g
    · rw [if_pos hk, hk, woundGroup, if_pos (by simp [hseal])]
    · rw [if_neg hk, woundGroup_of_not_mem (by simpa using hk)]
      rfl
  have hlines : (Four.build fun k => if k ∈ finalSeals [g] s then lineSealed (s.lines.get k) else s.lines.get k) =
      s.lines.set g (lineSealed (s.lines.get g)) := by
    refine Four.build_eq fun k => ?_
    rw [Four.get_set, hseal]
    by_cases hk : k = g <;> simp [hk]
  rw [sealGroup, sealCore_eq, testStart_sealedAt hstart' hopen, hstopped, wound, hgroups, hlines, woundFlags, hseal,
    sealedIn_one, if_neg hlast, if_neg hlast, sealedAt]
  simp only [State.group, Four.get_set, Four.set_set, if_true]
  rfl

/-- One group of BYPASS, with no start left undone before it (R179). -/
theorem windDown_eq_wound {w : Fin 4 → Prop} {s : State} (hs : StagingLaw w s) (hstart : NoStartLeft s) (g : Fin 4) :
    windDown s g = wound [g] s := by
  by_cases hoff : (s.group g).state = .disabled ∨ (s.group g).state = .stopping
  · rw [windDown_of_off hoff, wound_of_off hs hoff]
  · have hon : (s.group g).state = .running ∨ (s.group g).state = .faulted := by
      cases h : (s.group g).state <;> simp [h] at hoff ⊢
    rw [windDown_of_on hon]
    rcases ends_or_stops hon with hends | hstop
    · rw [wound_of_endsAtOnce hends]
      simp only [endsAtOnce, Bool.and_eq_true, beq_iff_eq, Bool.not_eq_true'] at hends
      obtain ⟨-, ⟨ho, hz⟩, hn⟩ := hends
      exact disableGroup_atOnce ho hz hn
    · cases hn : (s.group g).hasSealed with
      | true => rw [wound_of_sealed hs hstop hn, disableGroup_stops hn]
      | false => rw [wound_of_seal hs hstart hstop hn, disableGroup_seals hn (opened_of_finalSeal hs hstop hn).1]

/-! ### One group after others -/

/-- The groups of `l` leave the others as they are. -/
theorem wound_other {l : List (Fin 4)} {s : State} {g : Fin 4} (h : g ∉ l) :
    (wound l s).group g = s.group g := (wound_group l s g).trans (woundGroup_of_not_mem h)

theorem finalSeals_wound {l : List (Fin 4)} {s : State} {g : Fin 4} (h : g ∉ l) :
    finalSeals [g] (wound l s) = finalSeals [g] s := by
  have hg := wound_other (s := s) h
  refine List.filter_congr fun k hk => ?_
  rw [List.mem_singleton.mp hk, (wound_congr hg).2, hg]

theorem woundGroup_wound {l : List (Fin 4)} {s : State} {g : Fin 4} (h : g ∉ l) (k : Fin 4) :
    woundGroup [g] (wound l s) k = woundGroup (l ++ [g]) s k := by
  by_cases hk : k = g
  · subst hk
    have hg := wound_other (s := s) h
    simp [woundGroup, mem_finalSeals, hg, wound_congr hg]
  · rw [woundGroup_of_not_mem (by simpa using hk), wound_group]
    simp [woundGroup, mem_finalSeals, hk]

theorem endsIn_wound {l : List (Fin 4)} {s : State} {g : Fin 4} (h : g ∉ l) :
    EndsIn [g] (wound l s) ↔ EndsIn (l ++ [g]) s := by
  refine forall_congr' fun k => ?_
  rw [← woundGroup_disabled_iff, ← woundGroup_disabled_iff, woundGroup_wound h]

theorem EndsIn.append {l : List (Fin 4)} {s : State} (h : EndsIn l s) (m : List (Fin 4)) : EndsIn (l ++ m) s :=
  fun k => (h k).imp_right fun ⟨hk, he⟩ => ⟨List.mem_append_left m hk, he⟩

theorem sealedIn_append (l m : List (Fin 4)) : sealedIn m ∘ sealedIn l = sealedIn (l ++ m) := by
  funext e
  by_cases hl : e.group ∈ l ∧ e.role = .opened
  · simp [sealedIn, hl]
  · rw [Function.comp_apply, sealedIn.eq_1 l, if_neg hl]
    by_cases ho : e.role = .opened
    · have hg : e.group ∉ l := fun hg => hl ⟨hg, ho⟩
      simp [sealedIn, hg]
    · simp [sealedIn, ho]

theorem linedUp_append {s t : State} {l : List (Fin 4)} (hc : t.chold = s.chold)
    (hq : (t.commitReq, t.engine) = linedUp s l) (m : List (Fin 4)) : linedUp t m = linedUp s (l ++ m) := by
  cases m with
  | nil => rw [List.append_nil, ← hq]; rfl
  | cons g m =>
    cases l with
    | nil =>
      obtain ⟨h1, h2⟩ := Prod.mk.inj hq
      simp only [linedUp, hc, h1, h2, List.nil_append]
    | cons k l =>
      by_cases hwait : s.chold = true ∨ s.engine.state ≠ .idle
      · simp only [linedUp, if_pos hwait] at hq
        obtain ⟨h1, h2⟩ := Prod.mk.inj hq
        simp only [linedUp, List.cons_append, if_pos hwait, hc, h1, h2, List.append_assoc]
      · simp only [linedUp, if_neg hwait] at hq
        obtain ⟨h1, h2⟩ := Prod.mk.inj hq
        simp [linedUp, if_neg hwait, h1, h2]

/-- The end of a hold leaves no write held for another group. -/
theorem held_after_holdEnded {s t : State} {h x : HeldWrite} (hh : s.held = some h) (ht : t.hp = holdEnded s h)
    (hx : t.held = some x) : x.cls = h.cls := by
  obtain ⟨i, hi⟩ := held_eq_some.mp hh
  obtain ⟨j, hj⟩ := held_eq_some.mp hx
  have moved : ∀ role : HeadRole, t.hp = s.hp.setHead (.head h.cls role) → x.cls = h.cls := by
    intro role hr
    rw [hr, head_setHead hi (.head h.cls role) rfl] at hj
    simp only [Option.some.injEq, Slot.mk.injEq, SlotPhase.head.injEq] at hj
    exact hj.2.2.1.symm
  unfold holdEnded at ht
  split at ht
  · exact moved _ ht
  · split at ht
    · exact moved _ ht
    · rw [ht, hi] at hj
      simp only [Option.some.injEq, Slot.mk.injEq, SlotPhase.head.injEq] at hj
      exact hj.2.2.1.symm

theorem woundPort_wound {l : List (Fin 4)} {s : State} {g : Fin 4} (hg : g ∉ l) :
    woundPort [g] (wound l s) = woundPort (l ++ [g]) s := by
  have hport : (wound l s).hp = woundPort l s := rfl
  have unmoved : woundPort l s = s.hp → (wound l s).held = s.held := fun h =>
    State.held_congr (congrArg Port.slots (hport.trans h))
  cases hh : s.held with
  | none =>
    have hsame := woundPort_none hh l
    rw [woundPort_none ((unmoved hsame).trans hh), woundPort_none hh, hport, hsame]
  | some h =>
    rw [woundPort_some hh]
    by_cases hl : h.cls.group ∈ l
    · have hended : (wound l s).hp = holdEnded s h := by rw [hport, woundPort_some hh, if_pos hl]
      rw [if_pos (List.mem_append_left _ hl)]
      cases hx : (wound l s).held with
      | none => rw [woundPort_none hx, hended]
      | some x =>
        have hne : x.cls.group ∉ [g] := by
          rw [held_after_holdEnded hh hended hx, List.mem_singleton]
          exact fun he => hg (he ▸ hl)
        rw [woundPort_some hx, if_neg hne, hended]
    · have hsame : woundPort l s = s.hp := by rw [woundPort_some hh, if_neg hl]
      rw [woundPort_some ((unmoved hsame).trans hh)]
      by_cases hk : h.cls.group = g
      · have hflags := wound_congr (wound_other (s := s) hg)
        simp only [hk, List.mem_singleton, if_true, List.mem_append, or_true, holdEnded, hflags.1, hflags.2, hport, hsame]
      · simp [hk, hl, hport, hsame]

/-- Once BYPASS is reached no group is left to wind down. -/
theorem finalSeals_of_endsIn {l : List (Fin 4)} {s : State} {g : Fin 4} (hg : g ∉ l) (h : EndsIn l s) :
    finalSeals [g] s = [] :=
  finalSeals_none (.inl (not_wound_of_state (.inl ((h g).resolve_right fun hl => hg hl.1))).2)

theorem mode_wound {l : List (Fin 4)} {s : State} (hm : s.mode = .leaving) :
    (wound l s).mode = if EndsIn l s then .bypass else .leaving := by
  simp only [wound, hm, true_and]

theorem woundFlags_wound {l : List (Fin 4)} {s : State} {g : Fin 4} (hm : s.mode = .leaving) (hg : g ∉ l) :
    woundFlags l s ++ woundFlags [g] (wound l s) = woundFlags (l ++ [g]) s := by
  simp only [woundFlags, finalSeals_wound hg, finalSeals_append, mode_wound hm, endsIn_wound hg, hm]
  by_cases h : EndsIn l s
  · simp [if_pos h, if_pos (h.append [g]), finalSeals_of_endsIn hg h]
  · simp [if_neg h]

/-- Winding down one more group is winding down the longer list. -/
theorem wound_wound {l : List (Fin 4)} {s : State} {g : Fin 4} (hm : s.mode = .leaving) (hg : g ∉ l) :
    wound [g] (wound l s) = wound (l ++ [g]) s := by
  have hseals : finalSeals l s ++ finalSeals [g] (wound l s) = finalSeals (l ++ [g]) s := by
    rw [finalSeals_append, finalSeals_wound hg]
  have hmode : (if (wound l s).mode = .leaving ∧ EndsIn [g] (wound l s) then .bypass else (wound l s).mode) =
      if s.mode = .leaving ∧ EndsIn (l ++ [g]) s then .bypass else s.mode := by
    simp only [mode_wound hm, endsIn_wound hg, hm, true_and]
    by_cases h : EndsIn l s
    · simp [if_pos h, if_pos (h.append [g])]
    · simp [if_neg h]
  have hqueue : (wound l s).queue.map (sealedIn (finalSeals [g] (wound l s))) =
      s.queue.map (sealedIn (finalSeals (l ++ [g]) s)) := by
    rw [← hseals, ← sealedIn_append, ← List.map_map]
    rfl
  have hline := linedUp_append (s := s) (t := wound l s) (l := finalSeals l s) rfl rfl (finalSeals [g] (wound l s))
  have hevents : (wound l s).events.causes (woundFlags [g] (wound l s)) =
      s.events.causes (woundFlags (l ++ [g]) s) := by
    rw [← woundFlags_wound hm hg]
    exact List.foldl_append.symm
  have hlines : (Four.build fun k => if k ∈ finalSeals [g] (wound l s) then lineSealed ((wound l s).lines.get k)
        else (wound l s).lines.get k) =
      Four.build fun k => if k ∈ finalSeals (l ++ [g]) s then lineSealed (s.lines.get k) else s.lines.get k := by
    refine congrArg Four.build (funext fun k => ?_)
    rw [← hseals, wound_line]
    by_cases hk : k = g
    · have hn : k ∉ finalSeals l s := fun h => hg (hk ▸ (mem_finalSeals.mp h).1)
      simp [hn]
    · have hn : k ∉ finalSeals [g] (wound l s) := fun h => hk (by simpa using (mem_finalSeals.mp h).1)
      simp [hn]
  rw [hseals] at hline
  rw [wound.eq_1 [g] (wound l s), hmode, funext (woundGroup_wound hg), hqueue, hline, woundPort_wound hg, hevents, hlines]
  rfl

theorem wound_nil {s : State} (h : ¬ EndsIn [] s) : wound [] s = s := by
  have hgroups : Four.build (woundGroup [] s) = s.groups :=
    Four.build_eq fun k => woundGroup_of_not_mem List.not_mem_nil
  have hlines : (Four.build fun k => if k ∈ finalSeals [] s then lineSealed (s.lines.get k) else s.lines.get k) =
      s.lines := Four.build_eq fun k => if_neg List.not_mem_nil
  have hport : woundPort [] s = s.hp := woundPort_kept fun _ _ hx => absurd hx List.not_mem_nil
  have hseals : finalSeals [] s = [] := rfl
  rw [wound, hgroups, hlines, hport, woundFlags, hseals, sealedIn_nil, List.map_id, if_neg fun hl => h hl.2,
    if_neg fun hl => h hl.2]
  rfl

/-- The groups of a list wound down one after another, with no start left undone before them (R179). -/
theorem foldl_windDown_eq_wound {s : State} (hs : StagingLaw (fun _ => False) s) (hstart : NoStartLeft s)
    (hm : s.mode = .leaving) {l : List (Fin 4)} (hl : l.Nodup) : l.foldl windDown s = wound l s := by
  induction l using List.reverseRecOn with
  | nil =>
    obtain ⟨k, hk⟩ := (hs.mode.2 hm).2
    exact (wound_nil fun h => hk ((h k).resolve_right fun hk => List.not_mem_nil hk.1)).symm
  | append_singleton l g ih =>
    obtain ⟨hl, -, hg⟩ := List.nodup_append.mp hl
    have hlaw := (foldl_windDown_law l hs).1
    have hnone := (Orderly.foldl windDown_orderly l s).starts hstart
    rw [List.foldl_concat, windDown_eq_wound hlaw hnone, ih hl,
      wound_wound hm fun hmem => hg g hmem g (List.mem_singleton.mpr rfl) rfl]

end Sys2Proof.Machine

namespace Sys2Proof.Machine

/-! ## What every wind-down keeps (R19, R159, R180)

Whatever starts and completions it brings, a wind-down leaves the fault records and takes no flag back, and it moves the
mode to BYPASS alone, with its flag. -/

/-- From `s` to `t` the fault records stay, no flag is taken back, and the mode stays or becomes BYPASS with its flag. -/
structure WindFrame (s t : State) : Prop where
  fault : ∀ g, (t.group g).fault = (s.group g).fault
  flags : ∀ f, s.events.isSet f = true → t.events.isSet f = true
  mode : t.mode = s.mode ∨ t.mode = .bypass ∧ t.events.isSet .bypassReached = true

theorem WindFrame.refl (s : State) : WindFrame s s := ⟨fun _ => rfl, fun _ => id, .inl rfl⟩

theorem WindFrame.trans {s t u : State} (h1 : WindFrame s t) (h2 : WindFrame t u) : WindFrame s u := by
  refine ⟨fun g => (h2.fault g).trans (h1.fault g), fun f hf => h2.flags f (h1.flags f hf), ?_⟩
  rcases h2.mode with hm | hm
  · rw [hm]
    exact h1.mode.imp_right fun ⟨hb, hf⟩ => ⟨hb, h2.flags _ hf⟩
  · exact .inr hm

theorem WindFrame.foldl {α : Type} {f : State → α → State} (hf : ∀ s a, WindFrame s (f s a)) (l : List α)
    (s : State) : WindFrame s (l.foldl f s) := by
  induction l generalizing s with
  | nil => exact .refl s
  | cons a l ih => exact (hf s a).trans (ih _)

/-- A step that changes the record of one group, but for its fault record, and causes flags. -/
theorem WindFrame.of_record {s t : State} {g : Fin 4} {f : GroupRec → GroupRec} (hg : t.groups = s.groups.modify g f)
    (hf : ∀ x, (f x).fault = x.fault) (hflags : ∀ f, s.events.isSet f = true → t.events.isSet f = true)
    (hm : t.mode = s.mode) : WindFrame s t := by
  refine ⟨fun k => ?_, hflags, .inl hm⟩
  simp only [State.group, hg, Four.get_modify]
  split
  next h => rw [hf, h]
  next => rfl

/-- A step that leaves the groups, the flags and the mode. -/
theorem WindFrame.of_same {s t : State} (hg : t.groups = s.groups) (he : t.events = s.events) (hm : t.mode = s.mode) :
    WindFrame s t :=
  ⟨fun g => by rw [State.group_congr hg], fun f => by rw [he]; exact id, .inl hm⟩

theorem isSet_cause_of_isSet {e : EventBlock} {f : EventFlag} (k : EventFlag) (h : e.isSet f = true) :
    (e.cause k).isSet f = true := by
  rw [EventBlock.isSet_cause, h, Bool.true_or]

theorem sealCore_windFrame (g : Fin 4) (s : State) : WindFrame s (sealCore g s) :=
  .of_record (sealCore_groups g s) (fun _ => rfl) (fun _ => isSet_cause_of_isSet _) rfl

theorem releaseHeld_windFrame (g : Fin 4) (s : State) : WindFrame s (releaseHeld g s) := by
  obtain ⟨p, h⟩ := releaseHeld_eq g s
  rw [h]
  exact .of_same rfl rfl rfl

theorem convertHold_windFrame (g : Fin 4) (s : State) : WindFrame s (convertHold g s) := by
  obtain ⟨p, h⟩ := convertHold_eq g s
  rw [h]
  exact .of_same rfl rfl rfl

theorem leavingCheck_windFrame (s : State) : WindFrame s (leavingCheck s) := by
  unfold leavingCheck
  split
  · exact ⟨fun _ => rfl, fun _ => isSet_cause_of_isSet _, .inr ⟨rfl, by simp⟩⟩
  · exact .refl s

theorem inState_windFrame (g : Fin 4) (x : GroupState) (s : State) : WindFrame s (s.inState g x) :=
  .of_record (f := fun r => { r with state := x }) rfl (fun _ => rfl) (fun _ => id) rfl

theorem reachDisabled_windFrame (g : Fin 4) (s : State) : WindFrame s (reachDisabled g s) :=
  ((inState_windFrame g .disabled s).trans (releaseHeld_windFrame g _)).trans (leavingCheck_windFrame _)

theorem finishDrain_windFrame (g : Fin 4) (s : State) : WindFrame s (finishDrain g s) := by
  have completes : WindFrame s (completeCore g s) :=
    .of_record (completeCore_groups g s) (fun _ => rfl) (fun _ => isSet_cause_of_isSet _) rfl
  refine completes.trans ?_
  unfold finishDrain completeStopping
  split
  · split
    · exact sealCore_windFrame g _
    · exact reachDisabled_windFrame g _
  · exact .refl _

theorem testStart_windFrame (s : State) : WindFrame s (testStart s) := by
  obtain ⟨u, hu⟩ := startTest_total s
  rw [testStart_of hu]
  induction hu with
  | rests => exact .refl _
  | starts => exact .of_same rfl rfl rfl
  | @completes s u g rest _ _ _ _ _ _ ih =>
    rw [← finishDrain_eq] at ih
    have begins : WindFrame s (startedAt g rest s) := .of_same rfl rfl rfl
    exact (begins.trans (finishDrain_windFrame g _)).trans ih

theorem disableGroup_windFrame (g : Fin 4) (s : State) : WindFrame s (disableGroup g s) := by
  have stops : WindFrame s (convertHold g (s.inState g .stopping)) :=
    (inState_windFrame g .stopping s).trans (convertHold_windFrame g _)
  unfold disableGroup
  split
  · exact reachDisabled_windFrame g s
  · dsimp only
    split
    · exact stops.trans ((sealCore_windFrame g _).trans (testStart_windFrame _))
    · exact stops

theorem windDown_windFrame (s : State) (g : Fin 4) : WindFrame s (windDown s g) := by
  unfold windDown
  split
  any_goals exact disableGroup_windFrame g s
  all_goals exact .refl s

end Sys2Proof.Machine

namespace Sys2Proof.Machine

/-! ## ACTIVATE and BYPASS (R178, R179) -/

theorem exec_activate {s : State} {crc : Byte} (h : RequestReady s [0x03, 0x01, 0x00] crc) :
    exec (.activate 0x00 crc) s =
      .next (replied (activateAction 0x00 s).reply.bytes (activateAction 0x00 s).state) :=
  exec_ready (c := .activate 0x00 crc) rfl rfl h

theorem exec_bypass {s : State} {crc : Byte} (h : RequestReady s [0x03, 0x02, 0x00] crc) :
    exec (.bypass 0x00 crc) s = .next (replied (bypassAction 0x00 s).reply.bytes (bypassAction 0x00 s).state) :=
  exec_ready (c := .bypass 0x00 crc) rfl rfl h

/-- The part with the mode LEAVING, before the first group is wound down. -/
abbrev State.leaves (s : State) : State := { s with mode := .leaving }

theorem activateAction_wrongMode {s : State} (h : s.mode ≠ .bypass) : activateAction 0x00 s = refuse .wrongMode s := by
  simp [activateAction, h]

theorem activateAction_bypass {s : State} (h : s.mode = .bypass) :
    activateAction 0x00 s = done { s with mode := .active } := by
  simp [activateAction, h]

theorem bypassAction_wrongMode {s : State} (h : s.mode ≠ .active) : bypassAction 0x00 s = refuse .wrongMode s := by
  simp [bypassAction, h]

theorem bypassAction_disabled {s : State} (hm : s.mode = .active) (h : ∀ g : Fin 4, (s.group g).state = .disabled) :
    bypassAction 0x00 s = done (({ s with mode := .bypass } : State).cause .bypassReached) := by
  simp [bypassAction, hm, (allDisabled_iff s).mpr h]

theorem bypassAction_winds {s : State} (hm : s.mode = .active) (h : ∃ g : Fin 4, (s.group g).state ≠ .disabled) :
    bypassAction 0x00 s = done (four.foldl windDown s.leaves) := by
  simp [bypassAction, hm, (allDisabled_false_iff s).mpr h]

theorem exec_bypass_winds {s : State} {crc : Byte} (hr : RequestReady s [0x03, 0x02, 0x00] crc) (hm : s.mode = .active)
    (h : ∃ g : Fin 4, (s.group g).state ≠ .disabled) :
    exec (.bypass 0x00 crc) s = .next (replied [0xC0] (four.foldl windDown s.leaves)) := by
  rw [exec_bypass hr, bypassAction_winds hm h]
  rfl

/-- Groups that are all DISABLED or STOPPING stay as they are (R179). -/
theorem foldl_windDown_off {s : State} (h : ∀ g : Fin 4, (s.group g).state = .disabled ∨ (s.group g).state = .stopping)
    (l : List (Fin 4)) : l.foldl windDown s = s := by
  induction l with
  | nil => rfl
  | cons g l ih => rw [List.foldl_cons, windDown_of_off (h g), ih]

theorem leaves_law {s : State} (hs : StagingSound s) (h : ∃ g : Fin 4, (s.group g).state ≠ .disabled) :
    StagingLaw (fun _ => False) s.leaves := by
  have hlaw := (stagingSound_iff s).mp hs
  exact ⟨hlaw.counts, hlaw.order, hlaw.held, hlaw.shape, nofun, fun _ => ⟨fun _ hf => hf.elim, h⟩⟩

theorem foldl_windDown_leaves {s : State} (hs : StagingSound s) (hstart : NoStartLeft s)
    (h : ∃ g : Fin 4, (s.group g).state ≠ .disabled) : four.foldl windDown s.leaves = wound four s.leaves :=
  foldl_windDown_eq_wound (leaves_law hs h) hstart rfl (by decide)

/-- The groups and the mode once every group has been put through DISABLE_GROUP (R179, R180). -/
theorem foldl_windDown_mode {s t : State} (hlaw : StagingLaw (fun _ => False) s) (hm : s.mode = .leaving)
    (ht : t = four.foldl windDown s) :
    ((∀ g : Fin 4, (t.group g).state = .disabled) ∧ t.mode = .bypass ∧ t.events.isSet .bypassReached = true) ∨
      ((∀ g : Fin 4, (t.group g).state = .disabled ∨ (t.group g).state = .stopping) ∧
        (∃ g : Fin 4, (t.group g).state = .stopping) ∧ t.mode = .leaving) := by
  have hend : StagingLaw (fun k => False ∨ k ∈ four) t := ht ▸ (foldl_windDown_law four hlaw).1
  have hframe : WindFrame s t := ht ▸ .foldl windDown_windFrame four s
  rcases hframe.mode with hstay | ⟨hb, hf⟩
  · have hl : t.mode = .leaving := hstay.trans hm
    obtain ⟨hoff, k, hk⟩ := hend.mode.2 hl
    have hall := fun g => hoff g (.inr (mem_four g))
    exact .inr ⟨hall, ⟨k, (hall k).resolve_left hk⟩, hl⟩
  · exact .inl ⟨hend.mode.1 hb, hb, hf⟩

theorem linedUp_waits {s : State} {l : List (Fin 4)} (h : s.chold = true ∨ s.engine.state ≠ .idle ∨ l = []) :
    linedUp s l = (s.commitReq ++ l, s.engine) := by
  cases l with
  | nil => rw [List.append_nil]; rfl
  | cons g rest =>
    have hwait : s.chold = true ∨ s.engine.state ≠ .idle := by simpa using h
    rw [linedUp, if_pos hwait]

theorem linedUp_starts {s : State} (g : Fin 4) (rest : List (Fin 4)) (hc : s.chold = false)
    (he : s.engine.state = .idle) :
    linedUp s (g :: rest) = (rest, { s.engine with state := .draining g, retry := [] }) := by
  rw [linedUp, if_neg (by simp [hc, he])]

/-- Whether a flag is caused when the groups of `sealing` are sealed and the mode becomes `mode` (R47, R179). -/
def causedBy (sealing : List (Fin 4)) (mode : DeviceMode) : EventFlag → Bool
  | .sealed g => sealing.contains g
  | .bypassReached => mode == .bypass
  | _ => false

theorem woundFlags_contains {l : List (Fin 4)} {s : State} (hm : s.mode = .leaving) (f : EventFlag) :
    (woundFlags l s).contains f = causedBy (finalSeals l s) (wound l s).mode f := by
  rw [woundFlags, mode_wound hm]
  by_cases hb : EndsIn l s
  · rw [if_pos ⟨hm, hb⟩, if_pos hb, Bool.eq_iff_iff]
    cases f <;> simp [causedBy]
  · rw [if_neg fun h => hb h.2, if_neg hb, Bool.eq_iff_iff]
    cases f <;> simp [causedBy]

/-- Where the counts agree, the final seals are those of the RUNNING or FAULTED groups with OPEN entries and no sealed
epoch. -/
theorem finalSeals_eq_opened {w : Fin 4 → Prop} {s : State} (hs : StagingLaw w s) (l : List (Fin 4)) : finalSeals l s =
    l.filter (fun g => ((s.group g).state == .running || (s.group g).state == .faulted) && !(s.group g).hasSealed &&
      decide (0 < (s.group g).openCount)) := by
  refine List.filter_congr fun g _ => ?_
  cases hn : (s.group g).hasSealed with
  | true => simp
  | false =>
    have hz := (hs.counts g).2.2 hn
    rcases Nat.eq_zero_or_pos (s.group g).openCount with ho | ho
    · simpa [entersStopping, endsAtOnce, hn, hz, ho] using fun hon hr => Or.resolve_left hon hr
    · simp [entersStopping, endsAtOnce, hn, hz, ho, Nat.ne_of_gt ho]

/-- What BYPASS leaves as it is, whatever starts and completions it brings. -/
theorem foldl_windDown_frame {s t : State} (ht : t = four.foldl windDown s) :
    t.windows = s.windows ∧ t.timers = s.timers ∧ t.issue = s.issue ∧
      ∀ g : Fin 4, (t.group g).cfg = (s.group g).cfg ∧ (t.group g).fault = (s.group g).fault := by
  have hview : t.fenceView = s.fenceView := ht ▸ foldl_view windDown_view four s
  have hclock : ClockFrame s t := ht ▸ .foldl windDown_clock four s
  have hframe : WindFrame s t := ht ▸ .foldl windDown_windFrame four s
  exact ⟨congrArg Prod.snd hview, hclock.timers, congrArg Prod.fst hview, fun g => ⟨hclock.cfg g, hframe.fault g⟩⟩

/-- Under CHOLD the final seals join the commit request queue in group number order (R64, R179). -/
theorem foldl_windDown_commitReq {s t : State} (hs : StagingLaw (fun _ => False) s) (hm : s.mode = .leaving)
    (hc : s.chold = true) (ht : t = four.foldl windDown s) : t.commitReq = s.commitReq ++ finalSeals four s := by
  have hstart : NoStartLeft s := fun _ hn => by cases hc.symm.trans hn
  rw [ht, foldl_windDown_eq_wound hs hstart hm (by decide)]
  exact congrArg Prod.fst (linedUp_waits (.inl hc))

/-- Every group is put through DISABLE_GROUP: the part without the fields that this moves, and the mode and the entries. -/
theorem wound_four_eq (s : State) : wound four s.leaves = { s with
    mode := if ∀ g : Fin 4, (s.group g).state = .disabled ∨ endsAtOnce s g = true then .bypass else .leaving
    groups := (wound four s.leaves).groups
    queue := s.queue.map (sealedIn (finalSeals four s.leaves))
    commitReq := (wound four s.leaves).commitReq
    engine := (wound four s.leaves).engine
    hp := (wound four s.leaves).hp
    events := (wound four s.leaves).events
    lines := (wound four s.leaves).lines } := by
  have hmode : (wound four s.leaves).mode =
      if ∀ g : Fin 4, (s.group g).state = .disabled ∨ endsAtOnce s g = true then .bypass else .leaving := by
    rw [mode_wound rfl]
    refine if_congr (forall_congr' fun g => ?_) rfl rfl
    exact or_congr_right (and_iff_right (mem_four g))
  rw [← hmode]
  rfl

/-- What the values, or the *frame marks*, of the flags say once the groups are wound down (R159, R179). -/
theorem wound_events_reads {rd : EventBlock → EventFlag → Bool}
    (hrd : ∀ (e : EventBlock) (f k : EventFlag), rd (e.cause k) f = (rd e f || decide (f = k))) {l : List (Fin 4)}
    {s : State} (hm : s.mode = .leaving) (f : EventFlag) :
    rd (wound l s).events f = (rd s.events f || causedBy (finalSeals l s) (wound l s).mode f) := by
  rw [← woundFlags_contains hm f]
  exact EventBlock.causes_reads hrd _ s.events f

/-- Settles O45: the refusals, what BYPASS keeps whatever starts it brings, and its whole next state, read off `wound`. -/
theorem modeActionsMoveTheDevice : Obligations.ModeActionsMoveTheDevice := by
  refine ⟨fun s crc h => ?_, fun s crc h => ⟨fun hm => ?_, fun hm hd => ?_, fun hm hoff hon => ?_, fun hm hs hon => ?_⟩,
    fun s crc sealing h hm hs hstart hon hsealing => ?_⟩
  · rw [exec_activate h]
    exact ⟨fun hm => by rw [activateAction_wrongMode hm]; rfl, fun hm => by rw [activateAction_bypass hm]; rfl⟩
  · rw [exec_bypass h, bypassAction_wrongMode hm]
    rfl
  · rw [exec_bypass h, bypassAction_disabled hm hd]
    rfl
  · obtain ⟨g, hg⟩ := hon
    rw [exec_bypass_winds h hm ⟨g, by simp [hg]⟩, foldl_windDown_off (s := s.leaves) hoff]
  · obtain ⟨t, ht⟩ : ∃ t, t = four.foldl windDown s.leaves := ⟨_, rfl⟩
    have hlaw := leaves_law hs hon
    obtain ⟨hwindows, htimers, hissue, hgroups⟩ := foldl_windDown_frame ht
    refine ⟨replied [0xC0] t, ht ▸ exec_bypass_winds h hm hon, rfl, hwindows, htimers, hissue, hgroups,
      foldl_windDown_mode (t := t) hlaw rfl ht, fun hc => ?_⟩
    have hqueue := foldl_windDown_commitReq hlaw rfl hc ht
    rwa [finalSeals_eq_opened hlaw] at hqueue
  · obtain rfl : sealing = finalSeals four s.leaves := hsealing
    refine ⟨wound four s.leaves, ?_, wound_four_eq s, fun g hg => ⟨?_, ?_⟩, fun g hg => ⟨?_, ?_⟩,
      fun hw => ?_, fun g rest hc he hcons => ?_,
      fun hno => ?_, fun x hx hends => ?_, fun x hx hstops => ?_, fun f caused hc => ?_, ?_⟩
    · rw [exec_bypass_winds h hm hon, foldl_windDown_leaves hs hstart hon]
    · exact (wound_group _ _ g).trans (if_pos hg)
    · exact (wound_line _ _ g).trans (if_pos hg)
    · exact (wound_group _ _ g).trans ((if_neg hg).trans (if_pos (mem_four g)))
    · exact (wound_line _ _ g).trans (if_neg hg)
    · exact Prod.mk.inj (linedUp_waits (s := s.leaves) hw)
    · have hline := linedUp_starts (s := s.leaves) g rest hc he
      rw [← hcons] at hline
      exact Prod.mk.inj hline
    · exact woundPort_kept (s := s.leaves) fun x hx _ => hno x hx
    · exact (woundPort_some (s := s.leaves) hx four).trans ((if_pos (mem_four _)).trans (if_pos hends))
    · have hends := (on_of_entersStopping hstops).1
      refine (woundPort_some (s := s.leaves) hx four).trans ((if_pos (mem_four _)).trans ?_)
      exact (if_neg (Bool.eq_false_iff.mp hends)).trans (if_pos hstops)
    · have hcaused : caused = causedBy (finalSeals four s.leaves) (wound four s.leaves).mode f :=
        hc.trans (by cases f <;> rfl)
      rw [hcaused]
      exact ⟨wound_events_reads (fun e f k => e.isSet_cause f k) rfl f,
        wound_events_reads (rd := fun e f => e.mark.getLsbD f.bit) (fun e f k => e.mark_cause f k) rfl f⟩
    · exact EventBlock.enable_causes _ s.events

end Sys2Proof.Machine

namespace Sys2Proof.Machine

/-! ## What no command touches: the queue of waiting commands and the count of free values

A step takes its command from the queue before the command is executed, and only an edge of REFCLK draws a free value
(log entries 2 and 6). The part's own operations write the other fields, and a reset hands these two on. -/

/-- The queue that commands are taken from, and the count of free values drawn. -/
def State.supply (s : State) : List Instr × Nat := (s.pending, s.freeIndex)

theorem foldl_supply {α : Type} {f : State → α → State} (hf : ∀ s a, (f s a).supply = s.supply) (l : List α)
    (s : State) : (l.foldl f s).supply = s.supply := by
  induction l generalizing s with
  | nil => rfl
  | cons a l ih => exact (ih _).trans (hf s a)

/-! ### Ports and admission -/

theorem setPort_supply (p : PortId) (x : Port) (s : State) : (s.setPort p x).supply = s.supply := by
  cases p <;> rfl

theorem setHead_supply (p : PortId) (ph : SlotPhase) (s : State) : (s.setHead p ph).supply = s.supply :=
  setPort_supply p _ s

theorem observe_supply (stream : Requester) (k : Kind) (words : List Addr) (s : State) :
    (observe stream k words s).supply = s.supply :=
  observe_frame State.supply (fun _ _ _ => rfl) stream k words s

theorem offerAdmission_supply (cls : ReqClass) (g : Fin 4) (policy : FullPolicy) (r : Request) (s : State) :
    (offerAdmission cls g policy r s).supply = s.supply := by
  unfold offerAdmission
  split <;> rfl

theorem retryAdmission_supply (s : State) : (retryAdmission s).supply = s.supply := by
  unfold retryAdmission
  repeat' split
  all_goals rfl

theorem expireHold_supply (s : State) : (expireHold s).supply = s.supply := by
  unfold expireHold
  repeat' split
  all_goals rfl

theorem tickHold_supply (s : State) : (tickHold s).supply = s.supply := by
  unfold tickHold
  repeat' split
  case isTrue => exact expireHold_supply s
  all_goals rfl

theorem handleHost_supply (cls : ReqClass) (r : Request) (s : State) : (handleHost cls r s).supply = s.supply := by
  unfold handleHost
  repeat' split
  any_goals exact setHead_supply .hp _ s
  all_goals exact offerAdmission_supply _ _ _ _ s

theorem handleConsumer_supply (cls : ReqClass) (r : Request) (s : State) :
    (handleConsumer cls r s).supply = s.supply := by
  unfold handleConsumer
  repeat' split
  all_goals exact setHead_supply .cp _ s

theorem examine_supply (p : PortId) (r : Request) (s : State) : (examine p r s).supply = s.supply := by
  unfold examine
  split
  · exact setHead_supply p _ s
  · cases p
    · exact handleHost_supply _ r s
    · exact handleConsumer_supply _ r s

theorem processHead_supply (p : PortId) (s : State) : (processHead p s).supply = s.supply := by
  unfold processHead
  repeat' split
  any_goals rfl
  exact (examine_supply p _ _).trans (observe_supply _ _ _ s)

theorem reexamineHost_supply (g : Fin 4) (s : State) : (reexamineHost g s).supply = s.supply := by
  unfold reexamineHost
  repeat' split
  any_goals exact offerAdmission_supply _ _ _ _ s
  all_goals rfl

theorem reexamineConsumer_supply (g : Fin 4) (s : State) : (reexamineConsumer g s).supply = s.supply := by
  rcases reexamineConsumer_cases g s with ⟨h, -⟩ | ⟨_, _, -, h⟩ <;> rw [h]
  exact setHead_supply .cp _ s

theorem deliver_supply (p : PortId) (s : State) : (deliver p s).supply = s.supply := by
  have flagged : ∀ c t, (causeOf c t).supply = t.supply := fun c t => by unfold causeOf; split <;> rfl
  unfold deliver
  repeat' split
  any_goals rfl
  exact (flagged _ _).trans (setPort_supply p _ s)

theorem arrive_supply (p : PortId) (r : Request) (s : State) : (arrive p r s).supply = s.supply := by
  unfold arrive
  split <;> exact setPort_supply p _ s

/-! ### Seals, completions and starts -/

theorem reachDisabled_supply (g : Fin 4) (s : State) : (reachDisabled g s).supply = s.supply := by
  obtain ⟨p, m, e, h⟩ := reachDisabled_eq g s
  rw [h]
  rfl

theorem finishDrain_supply (g : Fin 4) (s : State) : (finishDrain g s).supply = s.supply := by
  unfold finishDrain completeStopping
  repeat' split
  any_goals exact reachDisabled_supply g (completeCore g s)
  all_goals rfl

theorem testStart_supply (s : State) : (testStart s).supply = s.supply := by
  obtain ⟨u, hu⟩ := startTest_total s
  rw [testStart_of hu]
  induction hu with
  | rests => rfl
  | starts => rfl
  | @completes s u g rest _ _ _ _ _ _ ih =>
    rw [← finishDrain_eq] at ih
    exact ih.trans (finishDrain_supply g _)

theorem sealGroup_supply (g : Fin 4) (s : State) : (sealGroup g s).supply = s.supply :=
  testStart_supply (sealCore g s)

theorem testCompletion_supply (s : State) : (testCompletion s).supply = s.supply := by
  unfold testCompletion
  repeat' split
  any_goals rfl
  exact (testStart_supply _).trans (finishDrain_supply _ s)

theorem boundary_supply (g : Fin 4) (s : State) : (boundary g s).supply = s.supply := by
  unfold boundary
  repeat' split
  any_goals exact sealGroup_supply g s
  all_goals rfl

theorem disableGroup_supply (g : Fin 4) (s : State) : (disableGroup g s).supply = s.supply := by
  have stops : (convertHold g (s.inState g .stopping)).supply = s.supply := by
    obtain ⟨p, h⟩ := convertHold_eq g (s.inState g .stopping)
    rw [h]
    rfl
  unfold disableGroup
  dsimp only
  repeat' split
  · exact reachDisabled_supply g s
  · exact (sealGroup_supply g _).trans stops
  · exact stops

theorem windDown_supply (s : State) (g : Fin 4) : (windDown s g).supply = s.supply := by
  unfold windDown
  split
  any_goals exact disableGroup_supply g s
  all_goals rfl

/-! ### Grants and answers -/

theorem grant_supply (s : State) : (grant s).supply = s.supply := by
  rcases grant_cases s with h | ⟨p, sl, f, -, -, h⟩ | ⟨e, -, -, h⟩ <;> rw [h]
  · exact setHead_supply p .issued _
  · exact observe_supply .ce .write [e.addr] _

theorem answerPort_supply (p : PortId) (r : IssueRec) (ans : AnswerStatus) (data : List Word) (s : State) :
    (answerPort p r ans data s).supply = s.supply := by
  unfold answerPort
  split
  · rfl
  · exact setPort_supply p _ s

theorem commitAnswer_supply (x : EntryRef) (ans : AnswerStatus) (s : State) :
    (commitAnswer x ans s).supply = s.supply := by
  have settled : ∀ t, (testCompletion (retryAdmission t)).supply = t.supply := fun t =>
    (testCompletion_supply _).trans (retryAdmission_supply t)
  unfold commitAnswer
  repeat' split
  any_goals exact settled _
  all_goals rfl

theorem takeAnswer_supply (ans : AnswerStatus) (data : List Word) (s : State) :
    (takeAnswer ans data s).supply = s.supply := by
  unfold takeAnswer routeAnswer
  repeat' split
  any_goals exact answerPort_supply _ _ ans data (departRecord _ _ s)
  any_goals exact commitAnswer_supply _ ans (departRecord _ _ s)
  all_goals rfl

/-! ### Time -/

theorem countEvent_supply (t : Fin 4) (s : State) : (countEvent t s).supply = s.supply := by
  unfold countEvent
  repeat' split
  any_goals exact boundary_supply t (s.modTimer t Timer.step)
  all_goals rfl

theorem tickTimer_supply (t : Fin 4) (s : State) : (tickTimer t s).supply = s.supply := by
  unfold tickTimer
  repeat' split
  any_goals exact countEvent_supply t (s.modTimer t _)
  all_goals rfl

theorem tickSink_supply (s : State) (k : TickSink) : (tickSink s k).supply = s.supply := by
  cases k with
  | timer t => exact tickTimer_supply t s
  | hold => exact tickHold_supply s
  | line g => rfl

/-- A service tick that a command makes takes its order from the command, not from the free values (log entry 6). -/
theorem serviceTick_supply (order : List TickSink) (s : State) : (serviceTick order s).supply = s.supply := by
  unfold serviceTick
  split
  · rfl
  · exact foldl_supply tickSink_supply _ _

theorem execTimerStep_supply {t : Fin 4} {s u : State} (h : execTimerStep t s = .next u) : u.supply = s.supply := by
  unfold execTimerStep at h
  cases h
  split
  · exact countEvent_supply t (s.modTimer t _)
  · rfl

theorem syncActs_supply (t : Fin 4) (level : Bool) (s : State) : (syncActs t level s).supply = s.supply := by
  have counts : (if countsSync (s.timer t) level then countEvent t s else s).supply = s.supply := by
    split
    · exact countEvent_supply t s
    · rfl
  unfold syncActs
  dsimp only
  split
  · exact (boundary_supply t _).trans counts
  · exact counts

theorem syncSettles_supply (t : Fin 4) (level : Bool) (s : State) :
    (syncSettles t level s).supply = s.supply := by
  unfold syncSettles
  repeat' split
  any_goals rfl
  exact syncActs_supply t level _

theorem choldSet_supply (asserted : Bool) (s : State) : (choldSet asserted s).supply = s.supply := by
  unfold choldSet
  split
  · exact testStart_supply { s with chold := asserted }
  · rfl

theorem releaseReset_supply (s : State) : (releaseReset s).supply = s.supply := by
  unfold releaseReset
  split <;> rfl

/-! ### Requests -/

theorem withIndex_supply {f : Fin 4 → State → Taken} (hf : ∀ g s, (f g s).state.supply = s.supply) (arg : Byte)
    (s : State) : (withIndex arg f s).state.supply = s.supply := by
  unfold withIndex
  split
  · rfl
  · exact hf _ s

theorem bypassAction_supply (arg : Byte) (s : State) : (bypassAction arg s).state.supply = s.supply := by
  unfold bypassAction
  repeat' split
  any_goals rfl
  exact foldl_supply windDown_supply four { s with mode := .leaving }

theorem enableAction_supply (g : Fin 4) (s : State) : (enableAction g s).state.supply = s.supply := by
  unfold enableAction
  repeat' split
  any_goals rfl
  exact (reexamineConsumer_supply g _).trans (reexamineHost_supply g (s.modGroup g GroupRec.enabled))

theorem disableAction_supply (g : Fin 4) (s : State) : (disableAction g s).state.supply = s.supply := by
  unfold disableAction
  split
  any_goals exact disableGroup_supply g s
  all_goals rfl

theorem sealAction_supply (g : Fin 4) (s : State) : (sealAction g s).state.supply = s.supply := by
  unfold sealAction
  repeat' split
  any_goals exact sealGroup_supply g s
  all_goals rfl

theorem discardAction_supply (g : Fin 4) (s : State) : (discardAction g s).state.supply = s.supply := by
  unfold discardAction
  split
  any_goals exact retryAdmission_supply (discardOpen g s)
  all_goals rfl

/-- The requests but those that wind down, enable, seal or discard a group write the fields of one block. -/
theorem requestOp_supply (c : Instr) (s : State) : (requestOp c s).state.supply = s.supply := by
  cases c with
  | bypass arg crc => exact bypassAction_supply arg s
  | enableGroup arg crc => exact withIndex_supply enableAction_supply arg s
  | disableGroup arg crc => exact withIndex_supply disableAction_supply arg s
  | sealGroup arg crc => exact withIndex_supply sealAction_supply arg s
  | discard arg crc => exact withIndex_supply discardAction_supply arg s
  | _ =>
    dsimp only [requestOp, getObject, readEffect, putDevice, putWindow, putGroupCfg, putTimerCfg, putMonCfg, putCmtCfg,
      activateAction, softResetAction, withIndex, clearFaultAction, timerStartAction, timerStopAction,
      timerPresetAction, setCmtAction]
    repeat' split
    all_goals rfl

theorem takeRequest_supply (c : Instr) (body : List Byte) (crc : Byte) (s : State) :
    (takeRequest body crc (requestOp c) s).supply = s.supply := by
  unfold takeRequest
  split
  · exact requestOp_supply c s
  · rfl

theorem requestArrives_supply (c : Instr) (body : List Byte) (crc : Byte) (s : State) :
    (requestArrives body crc (requestOp c) s).supply = s.supply := by
  unfold requestArrives
  split
  · exact takeRequest_supply c body crc s
  · rfl

/-- A byte clocked in, also one that completes a request (R164, R165). -/
theorem clockByte_supply (b : Byte) (s : State) : (clockByte b s).supply = s.supply := by
  have takes : ∀ bytes, (takeBytes bytes s).supply = s.supply := by
    intro bytes
    unfold takeBytes
    split
    next c _ => exact takeRequest_supply c _ _ s
    next => rfl
  unfold clockByte receiveRequestByte
  repeat' split
  any_goals exact takes _
  all_goals rfl

theorem startFrame_supply (s : State) : (startFrame s).supply = s.supply := by
  unfold startFrame
  repeat' split
  all_goals rfl

theorem endFrame_supply (s : State) : (endFrame s).supply = s.supply := by
  unfold endFrame
  split <;> rfl

/-! ## Every command is executed (log entries 14 and 21) -/

/-- The command answers a next state, which has the supply it was given. -/
def Completes (c : Instr) (s : State) : Prop := ∃ t : State, exec c s = .next t ∧ t.supply = s.supply

theorem Completes.of_request {c : Instr} {body : List Byte} (hb : c.requestBody = some body) (s : State) :
    Completes c s := by
  rcases exec_request hb s with h | h
  · exact ⟨s, h, rfl⟩
  · exact ⟨_, h, requestArrives_supply c body _ s⟩

/-- Every command answers a next state in every state. -/
theorem exec_completes (c : Instr) (s : State) : Completes c s := by
  cases c with
  | powerOn => exact ⟨_, rfl, rfl⟩
  | rstnAssert => exact ⟨_, rfl, rfl⟩
  | rstnRelease => exact ⟨_, rfl, releaseReset_supply s⟩
  | requestAccept p r => exact ⟨_, rfl, arrive_supply p r s⟩
  | headProcessing p => exact ⟨_, rfl, processHead_supply p s⟩
  | memoryGrant => exact ⟨_, rfl, grant_supply s⟩
  | memoryAnswer a data => exact ⟨_, rfl, takeAnswer_supply a data s⟩
  | drainStart => exact ⟨_, rfl, testStart_supply s⟩
  | responseDelivery p => exact ⟨_, rfl, deliver_supply p s⟩
  | holdTimerExpiry => exact ⟨_, rfl, expireHold_supply s⟩
  | serviceTick order => exact ⟨_, rfl, serviceTick_supply order s⟩
  | timerStep t => exact ⟨_, rfl, execTimerStep_supply rfl⟩
  | pulseEnd g => exact ⟨_, rfl, rfl⟩
  | syncTransition t level => exact ⟨_, rfl, syncSettles_supply t level s⟩
  | choldChange asserted => exact ⟨_, rfl, choldSet_supply asserted s⟩
  | frameStart => exact ⟨_, rfl, startFrame_supply s⟩
  | frameEnd => exact ⟨_, rfl, endFrame_supply s⟩
  | requestByteReceived b => exact ⟨_, rfl, clockByte_supply b s⟩
  | _ => exact .of_request rfl s

/-- Settles O3: every command answers a next state, and no operation of the part writes the supply. -/
theorem everyCommandCompletes : Obligations.EveryCommandCompletes := by
  intro c s
  obtain ⟨t, hnext, hsupply⟩ := exec_completes c s
  obtain ⟨hpending, hfree⟩ := Prod.mk.inj hsupply
  exact ⟨t, hnext, hpending, hfree⟩

/-- Settles O1: a queue that is not empty selects the command's branch of the step. -/
theorem stepTakesTheFrontCommand : Obligations.StepTakesTheFrontCommand := by
  intro s c rest hfront
  unfold step
  rw [hfront]

end Sys2Proof.Machine
